-- ==== Sys2Proof/Word.lean ====
section
/-! DEFINITION. The widths the spec names: bytes and words of R183, the 4-byte serial of R21. -/

namespace Sys2Proof

/-- One byte of a port frame or of the seat link. -/
abbrev Byte := BitVec 8

/-- One 16-bit word: a table word (R165), a zero, a gain, a cell word (R184). -/
abbrev Word := BitVec 16

/-- The 4-byte serial of an IDENTIFY answer (R21). -/
abbrev Serial := BitVec 32

end Sys2Proof
end

