-- ==== Sys2Proof/Config.lean ====
section
/-! DEFINITION. The sizes that the spec fixes for this part. The spec leaves nothing to an implementation and no value
open, so there is no free value here. -/

namespace Sys2Proof

/-- A station: the index of station code `index + 1`, codes 1..12 (R21). -/
abbrev Code := Fin 12

/-- A seat index 0..2 within a station (R41). -/
abbrev Seat := Fin 3

/-- A mat cell 0..11 (R75). -/
abbrev Cell := Fin 12

/-- The place list holds at most this many places (R42). -/
def Config.maxPlaces : Nat := 16

/-- The place table has this many words (R165). -/
def Config.tableWords : Nat := 184

/-- A transfer buffer holds this many words (R166). -/
def Config.bufferWords : Nat := 64

end Sys2Proof
end

