-- ==== Sys2Proof/Syntax.lean ====
section
/-! DEFINITION. The commands of the part: one constructor for each row of spec/opcode_table.json. The table gives no operands;
each constructor has those that the row's rules need. -/

namespace Sys2Proof

/-- The two controller ports (R156): A the restraint port, B the body port. -/
inductive Port where
  | a
  | b
  deriving DecidableEq, Repr

/-- When an event falls in the time base (R57): on the current time-base instant, or after it and before the next.
The stamp of an event is the first instant at or after it. -/
inductive Moment where
  | onInstant
  | later
  deriving DecidableEq, Repr

/-- A character received on the seat link (R1): its data, its mark bit and its stop bit. -/
structure RxChar where
  data : Byte
  mark : Bool
  stop : Bool
  deriving DecidableEq, Repr

/-- The fields of a good 40-bit request frame other than its request code (R156), with the moment of its frame event. -/
structure Frame where
  moment   : Moment
  forced   : Bool
  global   : Bool
  selector : Byte
  value    : Word
  deriving DecidableEq, Repr

/-- The commands. A `place` is a place number; the seventeen requests carry the port and the frame. -/
inductive Instr where
  | reset
  | linkQuietPassed
  | arbiterChoice (moment : Moment)
  | commandFrameSent (moment : Moment)
  | linkCharacterReceived (moment : Moment) (char : RxChar)
  | noAnswerTimeout (moment : Moment)
  | truncatedTimeout (moment : Moment)
  | drainQuietTimeout (moment : Moment)
  | exciteRetryStart (moment : Moment)
  | settlePassed (station : Code)
  | selfRelaxExpiry (station : Code)
  | excitedUnknownExpiry (station : Code)
  | recoveryEnd (station : Code)
  | dueTimeReached (station : Code)
  | budgetEntryAged
  | ageTick
  | freshnessLoss (place : Nat)
  | nodeSilentAfterJoin (place : Nat)
  | probeMark
  | reProbeMark (station : Code)
  | silentExpiry (station : Code)
  | startupTimeLimit
  | lapseExpiry
  | lampTimerReached (place : Nat)
  | chimeTimerReached (place : Nat)
  | trimMark (place : Nat)
  | chipSelectFall (port : Port)
  | badFrame (port : Port) (bits : List Bool)
  | illegalRequest (port : Port) (code : BitVec 6) (frame : Frame)
  | readNext (port : Port) (frame : Frame)
  | status (port : Port) (frame : Frame)
  | placeStatus (port : Port) (frame : Frame)
  | tableRead (port : Port) (frame : Frame)
  | changes (port : Port) (frame : Frame)
  | faultsRead (port : Port) (frame : Frame)
  | faultsClear (port : Port) (frame : Frame)
  | reminderSummary (port : Port) (frame : Frame)
  | setParam (port : Port) (frame : Frame)
  | setPolicy (port : Port) (frame : Frame)
  | setAttn (port : Port) (frame : Frame)
  | vehicleState (port : Port) (frame : Frame)
  | calZero (port : Port) (frame : Frame)
  | linkTest (port : Port) (frame : Frame)
  | acceptMap (port : Port) (frame : Frame)
  | freeze (port : Port) (frame : Frame)
  | unfreeze (port : Port) (frame : Frame)
  | chipSelectHighAfterReset (port : Port)
  deriving DecidableEq, Repr

end Sys2Proof
end

