-- ==== Sys2Proof/Machine/Frames.lean ====
section
/-! DEFINITION. The bits of the controller-port frames (R156, R157, R159, R183): the CRC, the taking apart of a received
frame into the command it is, and the bytes of a response. -/

namespace Sys2Proof.Machine

/-- The requests of the part with their codes ("Frame and Record Formats", table of request codes). -/
inductive Request where
  | readNext | status | placeStatus | tableRead | changes | faultsRead | faultsClear | reminderSummary
  | setParam | setPolicy | setAttn | vehicleState | calZero | linkTest | acceptMap | freeze | unfreeze
  deriving DecidableEq, Repr

/-- The request code of a request. -/
def Request.code : Request → BitVec 6
  | .readNext => 0x01
  | .status => 0x02
  | .placeStatus => 0x03
  | .tableRead => 0x04
  | .changes => 0x05
  | .faultsRead => 0x06
  | .faultsClear => 0x07
  | .reminderSummary => 0x08
  | .setParam => 0x10
  | .setPolicy => 0x11
  | .setAttn => 0x12
  | .vehicleState => 0x13
  | .calZero => 0x18
  | .linkTest => 0x19
  | .acceptMap => 0x20
  | .freeze => 0x21
  | .unfreeze => 0x22

/-- Every request, in the order of the code table. -/
def Request.all : List Request :=
  [.readNext, .status, .placeStatus, .tableRead, .changes, .faultsRead, .faultsClear, .reminderSummary,
   .setParam, .setPolicy, .setAttn, .vehicleState, .calZero, .linkTest, .acceptMap, .freeze, .unfreeze]

/-- The request that a code names, if it names one (R160). -/
def requestOfCode (code : BitVec 6) : Option Request :=
  Request.all.find? (fun r => r.code == code)

/-- One bit into the CRC register (R157): the register's top bit against the message bit, shift left, XOR with 0x1D when
the two differ. -/
def crcBit (reg : Byte) (bit : Bool) : Byte :=
  let shifted := reg <<< 1
  if reg.getLsbD 7 != bit then shifted ^^^ 0x1D else shifted

/-- The CRC register after the message bits, first bit first, from the start value 0xFF (R157). -/
def crcOfBits (bits : List Bool) : Byte := bits.foldl crcBit 0xFF

/-- The bits of a byte, most significant first (R156). -/
def byteBits (b : Byte) : List Bool :=
  [b.getLsbD 7, b.getLsbD 6, b.getLsbD 5, b.getLsbD 4, b.getLsbD 3, b.getLsbD 2, b.getLsbD 1, b.getLsbD 0]

/-- The bits of a run of bytes, byte 0 first, each most significant bit first. -/
def bytesBits : List Byte → List Bool
  | [] => []
  | b :: bs => byteBits b ++ bytesBits bs

/-- The number that a run of bits spells, the first bit the most significant. -/
def bitsNat (bits : List Bool) : Nat := bits.foldl (fun n b => 2 * n + b.toNat) 0

/-- A received frame is good when it has exactly 40 bits and its byte 4 is the CRC of its bytes 0 to 3 (R156, R157). -/
def isGoodFrame (bits : List Bool) : Bool :=
  bits.length == 40 && BitVec.ofNat 8 (bitsNat (bits.drop 32)) == crcOfBits (bits.take 32)

/-- The request code of a good frame: byte 0 bits 7..2. -/
def frameCode (bits : List Bool) : BitVec 6 := BitVec.ofNat 6 (bitsNat (bits.take 6))

/-- The other fields of a good frame: byte 0 bit 1 the forced flag and bit 0 the global flag, byte 1 the selector,
bytes 2 and 3 the value, byte 2 the more significant (R156, R183). -/
def frameFields (moment : Moment) (bits : List Bool) : Frame where
  moment := moment
  forced := (bits.drop 6).headD false
  global := (bits.drop 7).headD false
  selector := BitVec.ofNat 8 (bitsNat ((bits.drop 8).take 8))
  value := BitVec.ofNat 16 (bitsNat ((bits.drop 16).take 16))

/-- The command of a request. -/
def Request.command (r : Request) (p : Port) (f : Frame) : Instr :=
  match r with
  | .readNext => .readNext p f
  | .status => .status p f
  | .placeStatus => .placeStatus p f
  | .tableRead => .tableRead p f
  | .changes => .changes p f
  | .faultsRead => .faultsRead p f
  | .faultsClear => .faultsClear p f
  | .reminderSummary => .reminderSummary p f
  | .setParam => .setParam p f
  | .setPolicy => .setPolicy p f
  | .setAttn => .setAttn p f
  | .vehicleState => .vehicleState p f
  | .calZero => .calZero p f
  | .linkTest => .linkTest p f
  | .acceptMap => .acceptMap p f
  | .freeze => .freeze p f
  | .unfreeze => .unfreeze p f

/-- The command that the bits received in one frame of a port are, at its frame event (R156, R157, R160): a bad frame, a
request, or a good frame whose code names no request. -/
def frameCommand (p : Port) (moment : Moment) (bits : List Bool) : Instr :=
  if isGoodFrame bits then
    match requestOfCode (frameCode bits) with
    | some r => r.command p (frameFields moment bits)
    | none => .illegalRequest p (frameCode bits) (frameFields moment bits)
  else .badFrame p bits

/-- The bytes 0 to 3 of the request frame that carries a request code and fields (R156, R183). -/
def requestBytes (code : BitVec 6) (f : Frame) : List Byte :=
  [code ++ BitVec.ofBool f.forced ++ BitVec.ofBool f.global, f.selector,
   f.value.extractLsb' 8 8, f.value.extractLsb' 0 8]

/-- The 40 bits a controller sends for a request: bytes 0 to 3 and their CRC (R156, R157). -/
def requestBits (code : BitVec 6) (f : Frame) : List Bool :=
  bytesBits (requestBytes code f) ++ byteBits (crcOfBits (bytesBits (requestBytes code f)))

/-- The twelve statuses of a response (R159). -/
inductive Status where
  | ok | first | frameError | illegal | notPermitted | range | conflict | wrongState | staleGen | busy | condition | noData
  deriving DecidableEq, Repr

/-- The status codes ("Frame and Record Formats"). -/
def Status.code : Status → BitVec 4
  | .ok => 0
  | .first => 1
  | .frameError => 2
  | .illegal => 3
  | .notPermitted => 4
  | .range => 5
  | .conflict => 6
  | .wrongState => 7
  | .staleGen => 8
  | .busy => 9
  | .condition => 10
  | .noData => 11

/-- A formed response (R158, R159): its status, the echoed request code and the data. -/
structure Response where
  status : Status
  echo   : BitVec 6
  data   : Word
  deriving DecidableEq, Repr

/-- The five bytes of a response with the attention priority taken when it is loaded (R159, R183). -/
def responseBytes (r : Response) (priority : Nat) : List Byte :=
  let head : List Byte :=
    [r.status.code ++ 0#1 ++ BitVec.ofNat 3 priority, 0#2 ++ r.echo,
     r.data.extractLsb' 8 8, r.data.extractLsb' 0 8]
  head ++ [crcOfBits (bytesBits head)]

/-- What a frame of `edges` clock edges shifts out of a loaded response: its 40 bits on the first 40 edges, 0 on any edge
after the 40th (R158). -/
def shiftedOut (loaded : List Byte) (edges : Nat) : List Bool :=
  (bytesBits loaded).take edges ++ List.replicate (edges - 40) false

end Sys2Proof.Machine
end

