-- ==== Sys2Proof/WellFormed.lean ====
section
/-! DEFINITION. The operands that a command of the part can have: a place number is one of the list's 0..15 (R42), a bad frame
is not a good one (R157), and an illegal request names no request of the part (R160). -/

namespace Sys2Proof

/-- A place number lies in 0..15 (R42). -/
def placeInRange (n : Nat) : Bool := decide (n < Config.maxPlaces)

/-- The command's operands are such as the part can meet. -/
def Instr.wf : Instr → Bool
  | .reset => true
  | .linkQuietPassed => true
  | .arbiterChoice _ => true
  | .commandFrameSent _ => true
  | .linkCharacterReceived _ _ => true
  | .noAnswerTimeout _ => true
  | .truncatedTimeout _ => true
  | .drainQuietTimeout _ => true
  | .exciteRetryStart _ => true
  | .settlePassed _ => true
  | .selfRelaxExpiry _ => true
  | .excitedUnknownExpiry _ => true
  | .recoveryEnd _ => true
  | .dueTimeReached _ => true
  | .budgetEntryAged => true
  | .ageTick => true
  | .freshnessLoss n => placeInRange n
  | .nodeSilentAfterJoin n => placeInRange n
  | .probeMark => true
  | .reProbeMark _ => true
  | .silentExpiry _ => true
  | .startupTimeLimit => true
  | .lapseExpiry => true
  | .lampTimerReached n => placeInRange n
  | .chimeTimerReached n => placeInRange n
  | .trimMark n => placeInRange n
  | .chipSelectFall _ => true
  | .badFrame _ bits => !Machine.isGoodFrame bits
  | .illegalRequest _ code _ => (Machine.requestOfCode code).isNone
  | .readNext _ _ => true
  | .status _ _ => true
  | .placeStatus _ _ => true
  | .tableRead _ _ => true
  | .changes _ _ => true
  | .faultsRead _ _ => true
  | .faultsClear _ _ => true
  | .reminderSummary _ _ => true
  | .setParam _ _ => true
  | .setPolicy _ _ => true
  | .setAttn _ _ => true
  | .vehicleState _ _ => true
  | .calZero _ _ => true
  | .linkTest _ _ => true
  | .acceptMap _ _ => true
  | .freeze _ _ => true
  | .unfreeze _ _ => true
  | .chipSelectHighAfterReset _ => true

end Sys2Proof
end

