-- ==== Sys2Proof/Decode.lean ====
section
/-! DEFINITION. The command that a word of opcode_table.json's bits spells. No row of the table gives bits, so no word spells
one. What the bits of a controller-port frame are is `Machine.frameCommand` in Machine/Frames.lean. -/

namespace Sys2Proof

/-- The command a word spells by the table's bits: none, since no row of the table gives any. -/
def decodeTableWord (_nbits _w : Nat) : Option Instr := none

end Sys2Proof
end

