-- ==== Sys2Proof/Machine/State.lean ====
section
/-! DEFINITION. The state of the part as plain data, block by block (00_scope.md, table of blocks), the machine right after
reset, and the reasons a step can stop. -/

namespace Sys2Proof.Machine

/-- One copy for each controller port ("at both ports", 00_scope.md, Conventions). -/
structure Both (α : Type) where
  a : α
  b : α
  deriving DecidableEq, Repr

/-! ## The seat link (LC, R1 to R12) -/

/-- A command to a node with its payload (R3). -/
inductive LinkCommand where
  | identify
  | calRead (seat : Seat)
  | calStore (seat : Seat) (zeros : Vector Word 12)
  | excite
  | sample
  | relax
  | patternOn
  | patternOff
  deriving DecidableEq, Repr

/-- The blocks that ask LC for exchanges (R6). -/
inductive Block where
  | st | ss | cu
  deriving DecidableEq, Repr

/-- How an exchange attempt fails (R4, R5). -/
inductive FailKind where
  | noAnswer | truncated | badCheck
  deriving DecidableEq, Repr

/-- The phase of the attempt on the line (R6). -/
inductive Phase where
  | sending | awaiting | receiving | draining
  deriving DecidableEq, Repr

/-- The exchange record (R6). `phase` is absent while a retry is pending and not yet on the line (R9); `frameEnd` is the stamp
of the end of the attempt's command frame (R58); `rx` the answer characters taken so far. -/
structure Exchange where
  station      : Code
  cmd          : LinkCommand
  block        : Block
  firstFailure : Option FailKind
  phase        : Option Phase
  frameEnd     : Nat
  rx           : List Byte
  deriving DecidableEq, Repr

/-- LC's state (R6, R12). -/
structure LinkController where
  quietSeen  : Bool
  exchange   : Option Exchange
  failureRun : List Code
  deriving DecidableEq, Repr

/-! ## The stations (ST, R21 to R40) -/

/-- The seven states of a station (R21). -/
inductive StationState where
  | absent | probing | loading | testing | active | silent | faulted
  deriving DecidableEq, Repr

/-- The stored calibration of one place as CAL_READ gave it, with the cells R27 found unusable. -/
structure CalValues where
  zeros    : Vector Word 12
  gains    : Vector Word 12
  unusable : Vector Bool 12
  deriving DecidableEq, Repr

/-- Which exchange of the pattern test is asked for or in flight (R29, R30). -/
inductive TestStep where
  | patternOn (again : Bool)
  | relax
  | sample
  | patternOff (matched : Bool)
  deriving DecidableEq, Repr

/-- A station record (R21). `load` is the load status with the values read in this loading; `values` are those handed on at
the last load completion (R28) or handed back by R45; `restarted` holds from a detected restart until the station is ACTIVE
(R38). -/
structure Station where
  state       : StationState
  serial      : Option Serial
  count       : Option Nat
  failures    : Nat
  silentSince : Option Nat
  nextReprobe : Option Nat
  retained    : Bool
  load        : Vector (Option CalValues) 3
  values      : Vector (Option CalValues) 3
  testPending : Bool
  test        : Option TestStep
  restarted   : Bool
  deriving DecidableEq, Repr

/-- The Station Table: the records, the station whose start-up probe is under way (R39), the station chosen at the last probe
mark and the instant of the next mark (R23). -/
structure StationTable where
  stations  : Vector Station 12
  startup   : Option Code
  lastProbe : Option Code
  nextProbe : Option Nat
  deriving DecidableEq, Repr

/-! ## The scan scheduler (SS, R57 to R73) -/

/-- The EXCITE time of an EXCITED station: a stamp, or unknown with the stamp of the end of the exchange that made it so
(R57, R58). -/
inductive ExciteTime where
  | known (time : Nat)
  | unknown (since : Nat)
  deriving DecidableEq, Repr

/-- SS's view of a node's mats (R57). -/
inductive Excitation where
  | relaxed
  | excited (time : ExciteTime)
  | recovering (ends : Nat)
  deriving DecidableEq, Repr

/-- The step of a scan in progress (R57). -/
inductive ScanStep where
  | exciting | settling | sampling | relaxing
  deriving DecidableEq, Repr

/-- A scan in progress: its start stamp, its place in the order of first EXCITE attempts (R69), its step. -/
structure Scan where
  start : Nat
  order : Nat
  step  : ScanStep
  deriving DecidableEq, Repr

/-- A scan record (R57), with the instant at which the excitation state last became RELAXED (R62). -/
structure ScanRecord where
  excitation : Excitation
  relaxedAt  : Nat
  due        : Option Nat
  scan       : Option Scan
  deriving DecidableEq, Repr

/-- A request of class 3 that waits at the arbiter (R69). -/
structure LinkRequest where
  station : Code
  cmd     : LinkCommand
  block   : Block
  deriving DecidableEq, Repr

/-- SS's state: the scan records, the excitation history (R59), the waiting requests of class 3 in the order asked (R69), the
next place in the scans' order, and the period in use (R61). -/
structure ScanScheduler where
  records   : Vector ScanRecord 12
  history   : List Nat
  waiting   : List LinkRequest
  nextOrder : Nat
  period    : Nat
  deriving DecidableEq, Repr

/-! ## The places (PM, LU, CL, CU, RU, RPU) -/

/-- A place's identity (R41). -/
structure Identity where
  station : Code
  seat    : Seat
  serial  : Serial
  deriving DecidableEq, Repr

/-- A switch reading (R74, R90). -/
inductive Reading where
  | none | unlatched | latched | fault
  deriving DecidableEq, Repr

/-- The six class values (R98). -/
inductive Class where
  | empty | small | adult | childAnchored | childBelted | unknown
  deriving DecidableEq, Repr

/-- The restraint verdicts (R98, R108). -/
inductive Verdict where
  | notFitted | enable | suppress
  deriving DecidableEq, Repr

/-- The reminder stages (R143). -/
inductive Stage where
  | off | watch | lamp | chime | lapsed
  deriving DecidableEq, Repr

/-- Place policy (R54). -/
structure Policy where
  reminderEnable  : Bool
  childReminder   : Bool
  restraintFitted : Bool
  deriving DecidableEq, Repr

/-- How a long calibration stands when none runs (R123). -/
inductive CalEnd where
  | none | done | storeFail | abortedCell | abortedDisturbed | abortedNode | abortedFrozen
  deriving DecidableEq, Repr

/-- A running long calibration (R123). Its phase is STORING exactly while the new zeros are present. -/
structure CalRun where
  forced   : Bool
  samples  : Nat
  sums     : Vector Nat 12
  newZeros : Option (Vector Word 12)
  deriving DecidableEq, Repr

/-- The calibration state of a place (R123). -/
inductive Calibration where
  | ended (state : CalEnd)
  | running (run : CalRun)
  deriving DecidableEq, Repr

/-- The twelve place faults (R172), in the order of their bits in words 5 and 6 of a place record. -/
inductive FaultKind where
  | cellOpen | cellsOpen | cellSat | anchorFault | anchorPartial | buckleFault
  | cellCal | linkPattern | nodeRestart | nodeSilent | driftLimit | calStoreFail
  deriving DecidableEq, Repr

/-- The four global faults (R173), in the order of their bits in words 3 and 4 of the global record. -/
inductive GlobalFault where
  | mapOverflow | badStation | vehicleLapsed | linkFault
  deriving DecidableEq, Repr

/-- The seven change kinds (R179). -/
inductive ChangeKind where
  | cls | restraint | belt | reminder | fault | cal | map
  deriving DecidableEq, Repr

/-- A place record (R41). The INDEFINITE flag is the absence of `total` (R74); `filter` is absent while uninitialised (R85);
`fresh` is the freshness SS has handed on (R73); `trimDue` says that a trim mark has fallen since the last trim step (R134). -/
structure Place where
  id           : Identity
  total        : Option Nat
  atLeast      : Bool
  degraded     : Bool
  conc         : Nat
  filter       : Option Nat
  buckle       : Reading
  leftAnchor   : Reading
  rightAnchor  : Reading
  partialCount : Nat
  age          : Nat
  joinStamp    : Nat
  fresh        : Bool
  reported     : Class
  pendingClass : Option Class
  count        : Nat
  verdict      : Verdict
  refZeros     : Vector Word 12
  trims        : Vector Int 12
  cal          : Calibration
  emptySince   : Option Nat
  nextTrim     : Option Nat
  trimDue      : Bool
  stage        : Stage
  timer        : Nat
  fastened     : Bool
  policy       : Policy
  live         : BitVec 12
  sticky       : Both (BitVec 12)
  marks        : Both (BitVec 7)
  deriving DecidableEq, Repr

/-! ## Parameters, vehicle, reports -/

/-- The scan modes (R61). -/
inductive ScanMode where
  | fixed1x | fixed2x | auto
  deriving DecidableEq, Repr

/-- The sixteen parameters (R169). -/
structure Params where
  scanMode     : ScanMode
  vFast        : Nat
  filterShift  : Nat
  occOn        : Nat
  occOff       : Nat
  adultOn      : Nat
  adultOff     : Nat
  childMin     : Nat
  childMax     : Nat
  concChild    : Nat
  persistAdult : Nat
  persistOther : Nat
  vLamp        : Nat
  vChime       : Nat
  tLamp        : Nat
  tChime       : Nat
  deriving DecidableEq, Repr

/-- The vehicle state record (R137). `lapseStart` is the start instant of the running lapse timer; it is absent exactly while
the timer is expired, which is the lapse flag. -/
structure Vehicle where
  ignition   : Bool
  speed      : Option Nat
  lapseStart : Option Nat
  speedZero  : Option Nat
  deriving DecidableEq, Repr

/-- The reminder aggregates (R153). -/
structure Aggregates where
  lampMask   : Word
  chime      : Bool
  unfastened : Nat
  deriving DecidableEq, Repr

/-- What RPU keeps for one port beside the place records: its global sticky set (R174), global fault mark (R175), attention
enable set (bit c-1 for cause c), attention priority (R181) and whether its attention line is asserted (R182). -/
structure PortReport where
  stickyGlobal : BitVec 4
  globalMark   : Bool
  enable       : BitVec 7
  priority     : Nat
  lineLow      : Bool
  deriving DecidableEq, Repr

/-- The operating modes (00_scope.md, Modes of operation). -/
inductive Mode where
  | startUp | run | frozen
  deriving DecidableEq, Repr

/-- The time base: the current instant, and whether the present moment lies after it (R57). -/
structure TimeBase where
  now  : Nat
  past : Bool
  deriving DecidableEq, Repr

/-- Every block but the Port Unit. -/
structure Device where
  time        : TimeBase
  mode        : Mode
  startupDone : Bool
  lc          : LinkController
  st          : StationTable
  ss          : ScanScheduler
  places      : List Place
  generation  : Byte
  accepted    : List Identity
  acceptedGen : Byte
  params      : Params
  vehicle     : Vehicle
  agg         : Aggregates
  live        : BitVec 4
  report      : Both PortReport
  deriving DecidableEq, Repr

/-! ## The ports (PU, R156 to R168) -/

/-- The pending response of a port (R158). -/
inductive PendingResponse where
  | first
  | formed (response : Response)
  deriving DecidableEq, Repr

/-- PU's state for one port. `loaded` is the response being shifted out, present exactly while a frame is open; `sent` the bits
the last ended frame shifted out; `buffer`, `cursor` and `remaining` the transfer (R166, R167). -/
structure PortUnit where
  highSeen  : Bool
  loaded    : Option (List Byte)
  response  : PendingResponse
  sent      : List Bool
  buffer    : List Word
  cursor    : Nat
  remaining : Nat
  deriving DecidableEq, Repr

/-! ## The machine -/

/-- The state: the blocks, the ports, and the commands that wait, first in first out. -/
structure State where
  dev     : Device
  ports   : Both PortUnit
  pending : List Instr
  deriving DecidableEq, Repr

/-- The reasons a step can fault: none. No rule of the spec stops the part, so no meaning raises a fault (safe: nothing is cut
short). -/
inductive Fault where
  deriving DecidableEq, Repr

/-- The reasons a step can be refused. -/
inductive Refusal where
  /-- Raised by an arm of `exec` whose command has no meaning yet; no arm is left so (safe). -/
  | notModelled (mnemonic : String)
  deriving DecidableEq, Repr

/-! ## Reset -/

/-- An ABSENT station record: its state at reset (R21), and what becoming ABSENT leaves (R21, R31, R35). -/
def Station.absent : Station where
  state := .absent
  serial := none
  count := none
  failures := 0
  silentSince := none
  nextReprobe := none
  retained := false
  load := Vector.replicate 3 none
  values := Vector.replicate 3 none
  testPending := false
  test := none
  restarted := false

/-- A scan record at reset (R57). -/
def ScanRecord.reset : ScanRecord where
  excitation := .relaxed
  relaxedAt := 0
  due := none
  scan := none

/-- The parameters' defaults (R169). -/
def Params.reset : Params where
  scanMode := .auto
  vFast := 5
  filterShift := 2
  occOn := 1200
  occOff := 900
  adultOn := 3500
  adultOff := 3000
  childMin := 300
  childMax := 3400
  concChild := 150
  persistAdult := 5
  persistOther := 2
  vLamp := 10
  vChime := 20
  tLamp := 20
  tChime := 90

/-- RPU's state for a port at reset, with the port's enable set (R174, R175, R181). -/
def PortReport.reset (enable : BitVec 7) : PortReport where
  stickyGlobal := 0
  globalMark := false
  enable := enable
  priority := 0
  lineLow := false

/-- PU's state for a port at reset (R156, R158, R168). -/
def PortUnit.reset : PortUnit where
  highSeen := false
  loaded := none
  response := .first
  sent := []
  buffer := []
  cursor := 0
  remaining := 0

/-- Every block but PU at reset: station 1 is PROBING and its IDENTIFY waits (R39). -/
def Device.reset : Device where
  time := { now := 0, past := false }
  mode := .startUp
  startupDone := false
  lc := { quietSeen := false, exchange := none, failureRun := [] }
  st := { stations := (Vector.replicate 12 Station.absent).set 0 { Station.absent with state := .probing }
          startup := some 0
          lastProbe := none
          nextProbe := none }
  ss := { records := Vector.replicate 12 ScanRecord.reset
          history := []
          waiting := [{ station := 0, cmd := .identify, block := .st }]
          nextOrder := 0
          period := 60 }
  places := []
  generation := 0
  accepted := []
  acceptedGen := 0
  params := Params.reset
  vehicle := { ignition := false, speed := none, lapseStart := some 0, speedZero := none }
  agg := { lampMask := 0, chime := false, unfastened := 0 }
  live := 0
  report := { a := PortReport.reset 0x7F, b := PortReport.reset 0x7D }

/-- The machine right after reset, with no command waiting. -/
def State.reset : State where
  dev := Device.reset
  ports := { a := PortUnit.reset, b := PortUnit.reset }
  pending := []

end Sys2Proof.Machine
end

