-- ==== Sys2Proof/Machine/Ops.lean ====
section
/-! DEFINITION. The named operations over registers: the two ports' copies, time and stamps (R57), the station and scan records,
the requests that wait at the arbiter (R69), and the surroundings in which a place is evaluated. -/

namespace Sys2Proof.Machine

/-! ## The ports' copies -/

/-- The copy of one port. -/
def Both.get {α : Type} (x : Both α) : Port → α
  | .a => x.a
  | .b => x.b

/-- Replace the copy of one port; the other port's copy is untouched. -/
def Both.set {α : Type} (x : Both α) (p : Port) (v : α) : Both α :=
  match p with
  | .a => { x with a := v }
  | .b => { x with b := v }

/-- Change both copies ("at both ports", 00_scope.md). -/
def Both.map {α : Type} (f : α → α) (x : Both α) : Both α := { a := f x.a, b := f x.b }

/-! ## Sets held as bits -/

/-- The member with number `i` added to a set. -/
def withBit {n : Nat} (s : BitVec n) (i : Nat) : BitVec n := s ||| BitVec.twoPow n i

/-- The member with number `i` taken out of a set. -/
def withoutBit {n : Nat} (s : BitVec n) (i : Nat) : BitVec n := s &&& ~~~(BitVec.twoPow n i)

/-! ## Time (R57) -/

/-- The stamp of an event at the present moment: the first time-base instant at or after it (R57). -/
def Device.stamp (d : Device) : Nat := if d.time.past then d.time.now + 1 else d.time.now

/-- The device at an event's moment: once an event lies after the instant, so does every later one until the next instant. -/
def Device.atMoment (d : Device) (m : Moment) : Device :=
  match m with
  | .onInstant => d
  | .later => { d with time := { d.time with past := true } }

/-- An interval of `n` ms has passed since an event with this stamp (R57). -/
def Device.passed (d : Device) (stamp n : Nat) : Bool := decide (stamp + n ≤ d.time.now)

/-! ## Station and scan records -/

/-- The record of a station (R21). -/
def Device.station (d : Device) (c : Code) : Station := d.st.stations[c]

/-- Replace a station's record. -/
def Device.setStation (d : Device) (c : Code) (s : Station) : Device :=
  { d with st := { d.st with stations := d.st.stations.set c s } }

/-- The scan record of a station (R57). -/
def Device.record (d : Device) (c : Code) : ScanRecord := d.ss.records[c]

/-- Replace a station's scan record. -/
def Device.setRecord (d : Device) (c : Code) (r : ScanRecord) : Device :=
  { d with ss := { d.ss with records := d.ss.records.set c r } }

/-- Put a scan in progress into another step. -/
def Device.setScanStep (d : Device) (c : Code) (step : ScanStep) : Device :=
  d.setRecord c { d.record c with scan := (d.record c).scan.map (fun sc => { sc with step := step }) }

/-- Put a station's excitation state; the instant at which it last became RELAXED follows (R57, R62). -/
def Device.setExcitation (d : Device) (c : Code) (e : Excitation) : Device :=
  let r := d.record c
  let became := e = .relaxed ∧ r.excitation ≠ .relaxed
  d.setRecord c { r with excitation := e, relaxedAt := if became then d.stamp else r.relaxedAt }

/-- SS learns that a station stops being ACTIVE: no due time, and a scan in progress ends with no outcome counted, its waiting
step withdrawn (R62, R68). -/
def Device.stopScanning (d : Device) (c : Code) : Device :=
  d.setRecord c { d.record c with due := none, scan := none }

/-! ## Requests that wait at the arbiter -/

/-- Ask the arbiter for an exchange: the request stands behind every request placed before it (R69). -/
def Device.ask (d : Device) (c : Code) (cmd : LinkCommand) (block : Block) : Device :=
  { d with ss := { d.ss with waiting := d.ss.waiting ++ [{ station := c, cmd := cmd, block := block }] } }

/-- Withdraw a station's waiting requests (R36). -/
def Device.withdraw (d : Device) (c : Code) : Device :=
  { d with ss := { d.ss with waiting := d.ss.waiting.filter (fun r => r.station ≠ c) } }

/-- An IDENTIFY of the station waits or is in flight (R23, R34). -/
def Device.identifyOutstanding (d : Device) (c : Code) : Bool :=
  d.ss.waiting.any (fun r => r.station = c && r.cmd = .identify) ||
  d.lc.exchange.any (fun x => x.station = c && x.cmd = .identify)

/-! ## Places -/

/-- A long calibration is running on the place (R123). -/
def Place.calRunning (p : Place) : Bool :=
  match p.cal with
  | .running _ => true
  | .ended _ => false

/-- The place's calibration is in phase STORING (R123). -/
def Place.storing (p : Place) : Bool :=
  match p.cal with
  | .running r => r.newZeros.isSome
  | .ended _ => false

/-- Change each place of the list. -/
def Device.mapPlaces (d : Device) (f : Place → Place) : Device := { d with places := d.places.map f }

/-- A place change confined to the listed places of one station. -/
def Place.ofStation (c : Code) (f : Place → Place) (p : Place) : Place :=
  if p.id.station = c then f p else p

/-- Change the place that holds a place number when the event is taken (R48). -/
def Device.modifyPlace (d : Device) (n : Nat) (f : Place → Place) : Device :=
  { d with places := d.places.modify n f }

/-- Withdraw every waiting CAL_STORE whose place is no longer in phase STORING (R128, R129). -/
def Device.pruneStores (d : Device) : Device :=
  { d with ss := { d.ss with waiting := d.ss.waiting.filter (fun r =>
      match r.cmd with
      | .calStore seat _ =>
        d.places.any (fun p => p.id.station = r.station && p.id.seat = seat && p.storing)
      | _ => true) } }

/-! ## The surroundings of a place -/

/-- What the evaluation of one place reads beside the place: the mode, the parameters, the vehicle state, the instant, the
stamp of the event, and the accepted map. -/
structure Env where
  mode     : Mode
  params   : Params
  vehicle  : Vehicle
  now      : Nat
  stamp    : Nat
  accepted : List Identity

/-- The surroundings as the device now stands. -/
def Device.env (d : Device) : Env where
  mode := d.mode
  params := d.params
  vehicle := d.vehicle
  now := d.time.now
  stamp := d.stamp
  accepted := d.accepted

/-- A place is accepted while its identity is in the accepted map (R52). -/
def Env.accepts (e : Env) (p : Place) : Bool := e.accepted.contains p.id

end Sys2Proof.Machine
end

