-- ==== Sys2Proof/Machine/Operands.lean ====
section
/-! DEFINITION. The operand forms: the fields of a seat-link answer (R4, R184), of its payloads (R15, R17, R90), and of the
value fields of the port requests ("Value fields and data words"). -/

namespace Sys2Proof.Machine

/-! ## Bytes and words of the seat link (R184) -/

/-- Two bytes of a payload as a word, the more significant first (R184). -/
def payloadWord (payload : List Byte) (at_ : Nat) : Word :=
  payload.getD at_ 0 ++ payload.getD (at_ + 1) 0

/-- The twelve words of a payload from a byte position on, in cell order. -/
def payloadCells (payload : List Byte) (at_ : Nat) : Vector Word 12 :=
  Vector.ofFn (fun i : Cell => payloadWord payload (at_ + 2 * i.val))

/-- The two bytes of a word, the more significant first (R184). -/
def wordBytes (w : Word) : List Byte := [w.extractLsb' 8 8, w.extractLsb' 0 8]

/-- The modulo-256 sum of a run of bytes (R3, R4). -/
def byteSum (bytes : List Byte) : Byte := bytes.foldl (· + ·) 0

/-! ## The answer's status byte and the IDENTIFY payload (R4, R184) -/

/-- The result of an answer (R4). -/
inductive LinkResult where
  | ack | refused | notExcited
  deriving DecidableEq, Repr

/-- The result in bits 1..0 of a status byte; the code 0 is none (R184). -/
def resultOf (status : Byte) : Option LinkResult :=
  match status.extractLsb' 0 2 with
  | 1 => some .ack
  | 2 => some .refused
  | 3 => some .notExcited
  | _ => none

/-- The boot flag of a status byte (R184). -/
def bootFlag (status : Byte) : Bool := status.getLsbD 4

/-- The excited flag of a status byte (R184). -/
def excitedFlag (status : Byte) : Bool := status.getLsbD 5

/-- The pattern flag of a status byte (R184). -/
def patternFlag (status : Byte) : Bool := status.getLsbD 6

/-- The serial of an IDENTIFY answer, its first byte the most significant (R184). -/
def identitySerial (payload : List Byte) : Serial :=
  payload.getD 0 0 ++ payload.getD 1 0 ++ payload.getD 2 0 ++ payload.getD 3 0

/-- The station code that the node read from its connector. -/
def identityCode (payload : List Byte) : Nat := (payload.getD 4 0).toNat

/-- The place count of an IDENTIFY answer. -/
def identityCount (payload : List Byte) : Nat := (payload.getD 5 0).toNat

/-- The place count lies in 1..3 (R25). -/
def countAcceptable (n : Nat) : Bool := 1 ≤ n && n ≤ 3

/-! ## CAL_READ (R15, R27) -/

/-- A cell is unusable: gain 0, gain over 1023, or zero over 4000 (R27). -/
def cellUnusable (zero gain : Word) : Bool := gain == 0 || decide (1023 < gain.toNat) || decide (4000 < zero.toNat)

/-- The calibration of a CAL_READ answer: zeros, then gains, then the unusable cells ST finds (R27, R184). -/
def calValuesOf (payload : List Byte) : CalValues :=
  let zeros := payloadCells payload 0
  let gains := payloadCells payload 24
  { zeros := zeros, gains := gains, unusable := Vector.ofFn (fun i : Cell => cellUnusable zeros[i] gains[i]) }

/-! ## SAMPLE (R17, R19, R76, R90) -/

/-- The readings of one place: 12 cell words and the inputs byte (R17). -/
structure Readings where
  words  : Vector Word 12
  inputs : Byte
  deriving DecidableEq, Repr

/-- The readings of a seat index in a SAMPLE answer: 25 bytes for each place (R17). -/
def readingsOf (payload : List Byte) (seat : Seat) : Readings where
  words := payloadCells payload (25 * seat.val)
  inputs := payload.getD (25 * seat.val + 24) 0

/-- The class of a cell word (R76, R184). -/
inductive CellClass where
  | valid | saturated | floor | opened
  deriving DecidableEq, Repr

/-- The class in bits 15..14 of a cell word (R184). -/
def cellClass (w : Word) : CellClass :=
  match w.extractLsb' 14 2 with
  | 0 => .valid
  | 1 => .saturated
  | 2 => .floor
  | _ => .opened

/-- The 12-bit code of a cell word; bits 13..12 are not used (R76). -/
def cellCode (w : Word) : Nat := (w.extractLsb' 0 12).toNat

/-- A switch field of the inputs byte; the code that carries no reading is taken as FAULT (R90). -/
def switchOf (field : BitVec 2) : Reading :=
  match field with
  | 1 => .unlatched
  | 2 => .latched
  | _ => .fault

/-- The buckle in bits 1..0 of the inputs byte (R184). -/
def buckleOf (inputs : Byte) : Reading := switchOf (inputs.extractLsb' 0 2)

/-- The left anchor in bits 3..2 of the inputs byte (R184). -/
def leftAnchorOf (inputs : Byte) : Reading := switchOf (inputs.extractLsb' 2 2)

/-- The right anchor in bits 5..4 of the inputs byte (R184). -/
def rightAnchorOf (inputs : Byte) : Reading := switchOf (inputs.extractLsb' 4 2)

/-- The fixed content of one place in pattern mode: even cells 0x0AAA, odd cells 0x0555, inputs byte 0x5A (R19). -/
def patternPlace : List Byte :=
  [0x0A, 0xAA, 0x05, 0x55, 0x0A, 0xAA, 0x05, 0x55, 0x0A, 0xAA, 0x05, 0x55,
   0x0A, 0xAA, 0x05, 0x55, 0x0A, 0xAA, 0x05, 0x55, 0x0A, 0xAA, 0x05, 0x55, 0x5A]

/-- The payload of a pattern-mode SAMPLE answer of `count` places (R19). -/
def patternPayload : Nat → List Byte
  | 0 => []
  | count + 1 => patternPlace ++ patternPayload count

/-! ## Value fields of the requests -/

/-- The selector as a station code 1..12 (R37). -/
def stationSelector (f : Frame) : Option Code :=
  if h : 1 ≤ f.selector.toNat ∧ f.selector.toNat ≤ 12 then some ⟨f.selector.toNat - 1, by omega⟩ else none

end Sys2Proof.Machine
end

