-- ==== Sys2Proof/Machine/Flags.lean ====
section
/-! DEFINITION. RPU's work at every event (R172 to R182): faults that rise and fall, change kinds, attention; and the other values
that are recomputed at every event: the reminder aggregates (R153) and the period in use (R61). -/

namespace Sys2Proof.Machine

/-! ## Change kinds (R179) -/

/-- The number of a change kind in a port's set. -/
def ChangeKind.bit : ChangeKind → Nat
  | .cls => 0
  | .restraint => 1
  | .belt => 2
  | .reminder => 3
  | .fault => 4
  | .cal => 5
  | .map => 6

/-- Set a change kind on a place at both ports (R179). -/
def Place.mark (p : Place) (k : ChangeKind) : Place :=
  { p with marks := p.marks.map (fun s => withBit s k.bit) }

/-- A change kind is pending on a place at a port. -/
def Place.marked (p : Place) (port : Port) (k : ChangeKind) : Bool := (p.marks.get port).getLsbD k.bit

/-- Clear at one port every change kind of a place except FAULT (R162, R166). -/
def Place.clearRead (p : Place) (port : Port) : Place :=
  { p with marks := p.marks.set port (p.marks.get port &&& BitVec.twoPow 7 ChangeKind.fault.bit) }

/-- Clear the FAULT change kind of a place at one port (R176, R177). -/
def Place.clearFault (p : Place) (port : Port) : Place :=
  { p with marks := p.marks.set port (withoutBit (p.marks.get port) ChangeKind.fault.bit) }

/-! ## Place faults (R172, R174) -/

/-- The bit of a place fault in words 5 and 6 of a place record. -/
def FaultKind.bit : FaultKind → Nat
  | .cellOpen => 0
  | .cellsOpen => 1
  | .cellSat => 2
  | .anchorFault => 3
  | .anchorPartial => 4
  | .buckleFault => 5
  | .cellCal => 6
  | .linkPattern => 7
  | .nodeRestart => 8
  | .nodeSilent => 9
  | .driftLimit => 10
  | .calStoreFail => 11

/-- A fault is live on a place. -/
def Place.hasFault (p : Place) (k : FaultKind) : Bool := p.live.getLsbD k.bit

/-- The condition of a place fault as it stands after an event. A rise makes it live, adds it to both sticky sets and sets FAULT
at both ports; a fall changes the live set alone; no change changes nothing (R174). -/
def Place.setFault (p : Place) (k : FaultKind) (on : Bool) : Place :=
  if on then
    if p.hasFault k then p
    else ({ p with live := withBit p.live k.bit
                   sticky := p.sticky.map (fun s => withBit s k.bit) }).mark .fault
  else { p with live := withoutBit p.live k.bit }

/-! ## Global faults (R173 to R175) -/

/-- The bit of a global fault in words 3 and 4 of the global record. -/
def GlobalFault.bit : GlobalFault → Nat
  | .mapOverflow => 0
  | .badStation => 1
  | .vehicleLapsed => 2
  | .linkFault => 3

/-- The condition of a global fault as it stands after an event. A rise adds it to both global sticky sets and sets both global
fault marks; a fall changes the live set alone (R174). -/
def Device.setGlobal (d : Device) (k : GlobalFault) (on : Bool) : Device :=
  if on then
    if d.live.getLsbD k.bit then d
    else { d with live := withBit d.live k.bit
                  report := d.report.map (fun r =>
                    { r with stickyGlobal := withBit r.stickyGlobal k.bit, globalMark := true }) }
  else { d with live := withoutBit d.live k.bit }

/-! ## Levels -/

/-- The map pending level (R53): a listed place is not accepted, or an accepted identity is not listed. -/
def Device.mapPending (d : Device) : Bool :=
  d.places.any (fun p => !d.accepted.contains p.id) ||
  d.accepted.any (fun i => !(d.places.map (·.id)).contains i)

/-- The lapse flag: set exactly while the lapse timer is expired (R137). -/
def Vehicle.lapsed (v : Vehicle) : Bool := v.lapseStart.isNone

/-! ## The reminder aggregates (R144, R145, R153) -/

/-- A place is fastened while its recorded buckle reading is LATCHED (R144). -/
def Place.beltFastened (p : Place) : Bool := p.buckle == .latched

/-- The class condition of reminder eligibility (R145). -/
def Place.remindedClass (p : Place) : Bool :=
  match p.reported with
  | .small => true
  | .adult => true
  | .childBelted => p.policy.childReminder
  | .unknown => p.stage != .off
  | .empty => false
  | .childAnchored => false

/-- A listed place is eligible (R145). -/
def Env.eligible (e : Env) (p : Place) : Bool :=
  e.mode == .run && e.vehicle.ignition && p.policy.reminderEnable && p.remindedClass

/-- A place is counted in the unfastened count (R153). -/
def Env.counted (e : Env) (p : Place) : Bool := e.eligible p && !p.beltFastened

/-- A place's lamp is lit: LAMP, CHIME or LAPSED (R153). -/
def Place.lampLit (p : Place) : Bool :=
  match p.stage with
  | .lamp | .chime | .lapsed => true
  | .off | .watch => false

/-- A set of place numbers as 16 bits: bit `n` of the first flag on ("bit p stands for place number p"). -/
def numberSet : Nat → List Bool → Word
  | _, [] => 0
  | n, b :: bs => (if b then BitVec.twoPow 16 n else 0) ||| numberSet (n + 1) bs

/-- The lamp mask of a place list (R153). -/
def lampMaskOf (places : List Place) : Word := numberSet 0 (places.map Place.lampLit)

/-- The aggregates over the listed places (R153). -/
def Device.aggregates (d : Device) : Aggregates where
  lampMask := lampMaskOf d.places
  chime := d.places.any (fun p => p.stage == .chime)
  unfastened := d.places.countP d.env.counted

/-! ## The period in use (R61) -/

/-- The period in use, derived from the scan mode, v_fast and the speed (R61). -/
def Device.periodOf (d : Device) : Nat :=
  match d.params.scanMode with
  | .fixed1x => 120
  | .fixed2x => 60
  | .auto =>
    match d.vehicle.speed with
    | none => 60
    | some v => if d.params.vFast ≤ v then 60 else 120

/-! ## Attention (R180 to R182) -/

/-- Some listed place has a change kind pending at a port. -/
def Device.anyMarked (d : Device) (port : Port) (k : ChangeKind) : Bool :=
  d.places.any (fun p => p.marked port k)

/-- An attention cause 1..7 is pending at a port (R180). -/
def Device.causePending (d : Device) (port : Port) (cause : Nat) : Bool :=
  match cause with
  | 1 => d.anyMarked port .fault || (d.report.get port).globalMark
  | 2 => d.anyMarked port .restraint
  | 3 => d.mapPending
  | 4 => d.anyMarked port .cls
  | 5 => d.anyMarked port .belt || d.anyMarked port .reminder
  | 6 => d.anyMarked port .cal
  | 7 => d.vehicle.lapsed
  | _ => false

/-- A port's attention priority: the smallest number among the causes pending and enabled at it, 0 when there is none (R181). -/
def Device.priorityOf (d : Device) (port : Port) : Nat :=
  ([1, 2, 3, 4, 5, 6, 7].find? (fun c =>
    d.causePending port c && (d.report.get port).enable.getLsbD (c - 1))).getD 0

/-- RPU re-evaluates a port's attention: the priority, and the line asserted exactly while it is not 0 (R182). -/
def Device.attend (d : Device) (port : Port) : PortReport :=
  { d.report.get port with priority := d.priorityOf port, lineLow := decide (d.priorityOf port ≠ 0) }

/-- The end of every event: the aggregates and the period in use stand for the new state, and RPU acts last (R151, R182). -/
def Device.finish (d : Device) : Device :=
  { d with agg := d.aggregates
           ss := { d.ss with period := d.periodOf }
           report := { a := d.attend .a, b := d.attend .b } }

end Sys2Proof.Machine
end

