-- ==== Sys2Proof/Machine/Load.lean ====
section
/-! DEFINITION. The Load Unit (R74 to R97): what one pass makes of the 12 cell words and the inputs byte of a place. -/

namespace Sys2Proof.Machine

/-! ## Stage 1: the contribution of each cell -/

/-- The working zero of a cell: reference zero plus trim (R121). -/
def Place.workingZero (p : Place) (i : Cell) : Int := (p.refZeros[i].toNat : Int) + p.trims[i]

/-- The load a code gives: its rise above the working zero, floored at 0, times gain / 256, rounded down (R77). -/
def cellLoad (zero : Int) (gain : Word) (code : Nat) : Nat := ((code : Int) - zero).toNat * gain.toNat / 256

/-- A cell is missing when it reads OPEN or is in the unusable-cell set (R76, R79). -/
def cellMissing (v : CalValues) (r : Readings) (i : Cell) : Bool :=
  v.unusable[i] || cellClass r.words[i] == .opened

/-- The contribution of a present cell (R76 to R78): a SATURATED cell gives its ceiling, a FLOOR cell 0. -/
def cellContribution (p : Place) (v : CalValues) (r : Readings) (i : Cell) : Nat :=
  match cellClass r.words[i] with
  | .valid => cellLoad (p.workingZero i) v.gains[i] (cellCode r.words[i])
  | .saturated => cellLoad (p.workingZero i) v.gains[i] 4095
  | .floor => 0
  | .opened => 0

/-- The present cells of a pass, in cell order. -/
def presentCells (v : CalValues) (r : Readings) : List Cell :=
  (List.finRange 12).filter (fun i => !cellMissing v r i)

/-- The contributions of the present cells. -/
def contributions (p : Place) (v : CalValues) (r : Readings) : List Nat :=
  (presentCells v r).map (cellContribution p v r)

/-! ## Stages 2 and 3: the total and the clamp -/

/-- The total before the clamp: the sum with no cell missing, the sum and the mean substitute with one, INDEFINITE with two or
more (R80 to R82). -/
def rawTotal (cells : List Nat) (missing : Nat) : Option Nat :=
  match missing with
  | 0 => some cells.sum
  | 1 => some (cells.sum + cells.sum / 11)
  | _ => none

/-- The total with the clamp of R83. -/
def clampTotal (raw : Option Nat) : Option Nat := raw.map (fun t => min t 65534)

/-! ## Stage 4: the concentration -/

/-- One more contribution taken into the two largest, the larger first. -/
def takeTop (top : Nat × Nat) (c : Nat) : Nat × Nat :=
  if top.1 < c then (c, top.1) else if top.2 < c then (top.1, c) else top

/-- The sum of the two largest contributions (R84). -/
def topTwo (cells : List Nat) : Nat :=
  let top := cells.foldl takeTop (0, 0)
  top.1 + top.2

/-- The concentration K (R84): 0 for a total of 0 or INDEFINITE. -/
def concentration (cells : List Nat) (total : Option Nat) : Nat :=
  match total with
  | none => 0
  | some 0 => 0
  | some t => min 256 (topTwo cells * 256 / t)

/-! ## Stage 5: the filtered load -/

/-- The step of an initialised filter: the difference divided by 2^shift, truncated toward zero, and at least one load unit
toward the total when there is a difference (R87). -/
def filterStep (shift : Nat) (f t : Nat) : Int :=
  let d : Int := (t : Int) - (f : Int)
  let s := d.tdiv (2 ^ shift : Nat)
  if s = 0 then d.sign else s

/-- The filter after a pass (R85 to R87): initialised to the total, held on an INDEFINITE total, or stepped. -/
def filterAfter (shift : Nat) (filter total : Option Nat) : Option Nat :=
  match total, filter with
  | none, f => f
  | some t, none => some t
  | some t, some f => some ((f : Int) + filterStep shift f t).toNat

/-! ## Anchors -/

/-- Exactly one anchor reads LATCHED (R93). -/
def oneAnchor (left right : Reading) : Bool := (left == .latched) != (right == .latched)

/-- The anchors agree: both LATCHED or both UNLATCHED (R93). -/
def anchorsAgree (left right : Reading) : Bool :=
  (left == .latched && right == .latched) || (left == .unlatched && right == .unlatched)

/-- The anchor-partial count after a pass (R93). -/
def partialAfter (count : Nat) (left right : Reading) : Nat :=
  if oneAnchor left right then min 3 (count + 1) else 0

/-- ANCHOR_PARTIAL after a pass, from the count after it and the fault before it (R93). -/
def anchorPartialAfter (count : Nat) (left right : Reading) (before : Bool) : Bool :=
  if oneAnchor left right then before || count == 3
  else before && !anchorsAgree left right

/-! ## The pass -/

/-- The load fields after a pass (R88), without the faults. -/
def Place.loadFields (p : Place) (shift : Nat) (v : CalValues) (r : Readings) : Place :=
  let cells := contributions p v r
  let missing := 12 - cells.length
  let raw := rawTotal cells missing
  let saturated := (presentCells v r).any (fun i => cellClass r.words[i] == .saturated)
  let left := leftAnchorOf r.inputs
  let right := rightAnchorOf r.inputs
  { p with
    total := clampTotal raw
    atLeast := raw.any (fun t => saturated || decide (65534 < t))
    degraded := missing == 1
    conc := concentration cells (clampTotal raw)
    filter := filterAfter shift p.filter (clampTotal raw)
    buckle := buckleOf r.inputs
    leftAnchor := left
    rightAnchor := right
    partialCount := partialAfter p.partialCount left right }

/-- The six faults of LU after a pass (R89, R91 to R93), each set or cleared according to that pass. -/
def Place.loadFaults (p : Place) (v : CalValues) (r : Readings) : Place :=
  let missing := 12 - (presentCells v r).length
  (((((p.setFault .cellOpen (decide (1 ≤ missing))).setFault .cellsOpen (decide (2 ≤ missing))).setFault
    .cellSat ((presentCells v r).any (fun i => cellClass r.words[i] == .saturated))).setFault
    .anchorFault (p.leftAnchor == .fault || p.rightAnchor == .fault)).setFault
    .anchorPartial (anchorPartialAfter p.partialCount p.leftAnchor p.rightAnchor (p.hasFault .anchorPartial))).setFault
    .buckleFault (p.buckle == .fault)

/-- LU's work at a pass (R75): the fields, then the faults. -/
def Place.loadPass (p : Place) (shift : Nat) (v : CalValues) (r : Readings) : Place :=
  (p.loadFields shift v r).loadFaults v r

/-! ## The station reload (R96) -/

/-- What LU does to a listed place at a station reload: the filter uninitialised, the anchor-partial count 0. -/
def Place.loadReload (p : Place) : Place := { p with filter := none, partialCount := 0 }

end Sys2Proof.Machine
end

