-- ==== Sys2Proof/Machine/Classify.lean ====
section
/-! DEFINITION. The Classifier (R98 to R120): the decision table, persistence, the release evaluation and the verdict of one
place. -/

namespace Sys2Proof.Machine

/-! ## The verdict -/

/-- The verdict R108 gives a place. -/
def Env.verdictOf (e : Env) (p : Place) : Verdict :=
  if p.policy.restraintFitted = false then .notFitted
  else if e.mode = .run ∧ p.reported = .adult ∧ e.accepts p = true ∧ p.fresh = true ∧ p.calRunning = false then .enable
  else .suppress

/-- CL re-evaluates a place's verdict: held in FROZEN, else that of R108, with RESTRAINT at both ports when it changes (R108,
R109). -/
def Place.evalVerdict (e : Env) (p : Place) : Place :=
  if e.mode = .frozen then p
  else if e.verdictOf p = p.verdict then p
  else ({ p with verdict := e.verdictOf p }).mark .restraint

/-! ## The decision table (R103, R104) -/

/-- Row 1: the place cannot be judged. -/
def Place.cannotJudge (p : Place) : Bool :=
  p.total.isNone || !p.fresh || p.hasFault .anchorPartial || p.hasFault .anchorFault

/-- The filter is initialised and its load satisfies a comparison (R85: an uninitialised filter satisfies none). -/
def Place.loadMeets (p : Place) (test : Nat → Bool) : Bool := p.filter.any test

/-- Row 3: a belted child restraint. -/
def Place.beltedChild (q : Params) (p : Place) : Bool :=
  decide (q.concChild ≤ p.conc) &&
  p.loadMeets (fun f => decide (q.childMin ≤ f) && decide (f ≤ q.childMax)) && p.buckle == .latched

/-- Row 4: the adult threshold that the reported class chooses (R104). -/
def Place.adultLoad (q : Params) (p : Place) : Bool :=
  p.loadMeets (fun f => decide ((if p.reported = .adult then q.adultOff else q.adultOn) ≤ f))

/-- Row 5: the occupied threshold that the reported class chooses (R104), or a total that is a lower bound. -/
def Place.occupiedLoad (q : Params) (p : Place) : Bool :=
  p.loadMeets (fun f => decide ((if p.reported = .empty then q.occOn else q.occOff) ≤ f)) || p.atLeast

/-- The candidate of a pass evaluation: the first row that holds (R103). -/
def Place.candidate (q : Params) (p : Place) : Class :=
  if p.cannotJudge then .unknown
  else if p.leftAnchor = .latched ∧ p.rightAnchor = .latched then .childAnchored
  else if p.beltedChild q then .childBelted
  else if p.adultLoad q then .adult
  else if p.occupiedLoad q then .small
  else .empty

/-! ## Persistence (R105, R106) -/

/-- The persistence threshold of a class (R105). -/
def Params.threshold (q : Params) : Class → Nat
  | .unknown => 1
  | .adult => q.persistAdult
  | .empty => q.persistOther
  | .small => q.persistOther
  | .childAnchored => q.persistOther
  | .childBelted => q.persistOther

/-- The reported class changes: CLASS at both ports (R106), and the empty-since instant with its trim marks follows it (R134). -/
def Place.adopt (e : Env) (p : Place) (c : Class) : Place :=
  ({ p with
     reported := c
     pendingClass := none
     count := 0
     emptySince := if c = Class.empty then some e.stamp else none
     nextTrim := if c = Class.empty then some (e.stamp + 60000) else none
     trimDue := false }).mark .cls

/-- The persistence step with a candidate (R105). -/
def Place.persist (e : Env) (p : Place) (c : Class) : Place :=
  if c = p.reported then { p with pendingClass := none, count := 0 }
  else
    let n := if p.pendingClass = some c then p.count + 1 else 1
    if e.params.threshold c ≤ n then p.adopt e c
    else { p with pendingClass := some c, count := n }

/-! ## The evaluations (R99) -/

/-- CL evaluates the place at all: the mode is RUN and no long calibration runs on it (R99, R107). -/
def Env.classifies (e : Env) (p : Place) : Bool := e.mode == .run && !p.calRunning

/-- The pass evaluation: the whole table (R99, R103). -/
def Place.passEvaluation (e : Env) (p : Place) : Place :=
  if e.classifies p then p.persist e (p.candidate e.params) else p

/-- A freshness or release evaluation: row 1 alone (R99, R100, R107). -/
def Place.rowOneEvaluation (e : Env) (p : Place) : Place :=
  if e.classifies p && p.cannotJudge then p.persist e .unknown else p

/-- The pending class and the count are cleared (R107, R113, R119). -/
def Place.dropPending (p : Place) : Place := { p with pendingClass := none, count := 0 }

end Sys2Proof.Machine
end

