-- ==== Sys2Proof/Machine/Remind.lean ====
section
/-! DEFINITION. The Reminder Unit (R137 to R155): the stage of one place and its timer. -/

namespace Sys2Proof.Machine

/-- A place is held while its reported class is UNKNOWN or the speed is unknown (R146). -/
def Env.held (e : Env) (p : Place) : Bool := p.reported == .unknown || e.vehicle.speed.isNone

/-- The speed is known and at or above a limit. -/
def Env.speedAtLeast (e : Env) (limit : Nat) : Bool := e.vehicle.speed.any (fun v => decide (limit ≤ v))

/-- The stage and timer after an evaluation (R147 to R151). Each of two events at one instant is evaluated as it is taken, in either
order; where the columns of R152's table give the outcome of the other order (its lines 1, 2 and 6, read literally), R147 to R150
are followed (the model's choice, assumption 34). -/
def Env.nextStage (e : Env) (p : Place) : Stage × Nat :=
  if p.beltFastened || !e.eligible p then (.off, 0)
  else if e.held p then (p.stage, p.timer)
  else match p.stage with
  | .off =>
    if p.fastened && e.speedAtLeast e.params.vChime then (.chime, 0)
    else if e.speedAtLeast e.params.vLamp then (.lamp, 0)
    else (.watch, 0)
  | .watch => if e.speedAtLeast e.params.vLamp then (.lamp, 0) else (.watch, p.timer)
  | .lamp =>
    if decide (e.params.tLamp * 1000 ≤ p.timer) && e.speedAtLeast e.params.vChime then (.chime, 0)
    else (.lamp, p.timer)
  | .chime => if e.params.tChime * 1000 ≤ p.timer then (.lapsed, 0) else (.chime, p.timer)
  | .lapsed => (.lapsed, p.timer)

/-- The place with its stage and timer as an evaluation leaves them. -/
def Place.toStage (e : Env) (p : Place) : Place :=
  { p with stage := (e.nextStage p).1, timer := (e.nextStage p).2 }

/-- REMINDER at both ports when an event changed the stage of the place or whether it is counted (R154). `e0` and `p0` are the
surroundings and the place before the event, `e` and `p` after it. -/
def Place.markReminder (p : Place) (e0 : Env) (p0 : Place) (e : Env) : Place :=
  if p.stage ≠ p0.stage ∨ e.counted p ≠ e0.counted p0 then p.mark .reminder else p

/-- RU evaluates a place at an event (R151) and sets the mark of R154. -/
def Place.remind (p : Place) (e0 : Env) (p0 : Place) (e : Env) : Place := (p.toStage e).markReminder e0 p0 e

/-- The fastened-this-trip flag at an event at which the place may be fastened with the ignition on (R144). -/
def Place.noteFastened (e : Env) (p : Place) : Place :=
  if p.beltFastened && e.vehicle.ignition then { p with fastened := true } else p

/-- BELT at both ports when a pass reads the buckle differently from the reading recorded before it (R154). -/
def Place.noteBelt (before : Reading) (p : Place) : Place :=
  if p.buckle = before then p else p.mark .belt

/-- The stage timer at a time-base instant: it counts in LAMP and CHIME while the place is not held, up to its limit (R146, R149,
R150). -/
def Place.tickTimer (e : Env) (p : Place) : Place :=
  let limit := match p.stage with
    | .lamp => e.params.tLamp * 1000
    | .chime => e.params.tChime * 1000
    | .off | .watch | .lapsed => 0
  if e.held p = false ∧ p.timer < limit then { p with timer := p.timer + 1 } else p

/-- A time-base instant for a place: its age counts up to 65535 (R72), and its stage timer counts. -/
def Place.tick (e : Env) (p : Place) : Place :=
  ({ p with age := min 65535 (p.age + 1) }).tickTimer e

end Sys2Proof.Machine
end

