-- ==== Sys2Proof/Machine/Calibrate.lean ====
section
/-! DEFINITION. The Calibration Unit (R121 to R136): the long zero calibration and the drift trim of one place. -/

namespace Sys2Proof.Machine

/-! ## The start and the end of a long calibration -/

/-- CU starts a calibration (R126): RUNNING, SAMPLING, no samples; CL drops the pending class and re-evaluates the verdict
(R107). -/
def Place.startCal (e : Env) (forced : Bool) (p : Place) : Place :=
  ({ p.dropPending with
     cal := .running { forced := forced, samples := 0, sums := Vector.replicate 12 0, newZeros := none } }).evalVerdict e

/-- The trim marks restart at the end of a calibration: 10 s after it, or 60 s after empty-since if that is later (R134). -/
def Place.restartTrim (e : Env) (p : Place) : Place :=
  { p with nextTrim := p.emptySince.map (fun t => max (e.stamp + 10000) (t + 60000)), trimDue := false }

/-- A calibration ends with its place still listed (R132): the end state, CAL at both ports, the trim marks, a release evaluation,
the verdict, the reminder stage for the class so left (R111). The REMINDER mark is left to the event as a whole (R154). -/
def Place.endCal (e : Env) (state : CalEnd) (p : Place) : Place :=
  let ended := ({ p with cal := .ended state }).mark .cal
  (((ended.restartTrim e).rowOneEvaluation e).evalVerdict e).toStage e

/-- A running calibration ends with a state; a place with none running is left as it is. -/
def Place.abortCal (e : Env) (state : CalEnd) (p : Place) : Place :=
  if p.calRunning then (p.endCal e state).markReminder e p e else p

/-- The new zeros are taken as reference zeros and the trims return to 0 (R122, R131). -/
def Place.takeZeros (p : Place) (zeros : Vector Word 12) : Place :=
  { p with refZeros := zeros, trims := Vector.replicate 12 0 }

/-- The end of the CAL_STORE exchange (R131): DONE when the node answered ACK, else STORE_FAIL; the new zeros in force, DRIFT_LIMIT
cleared (R136), CAL_STORE_FAIL cleared or live (R133). A place whose calibration is not STORING discards the outcome (R128,
R129). -/
def Place.storeEnded (e : Env) (acked : Bool) (p : Place) : Place :=
  match p.cal with
  | .running r =>
    match r.newZeros with
    | some zeros =>
      ((((p.takeZeros zeros).setFault .driftLimit false).setFault .calStoreFail (!acked)).endCal e
        (if acked then .done else .storeFail)).markReminder e p e
    | none => p
  | .ended _ => p

/-! ## Samples (R127, R130) -/

/-- A usable cell reads OPEN or SATURATED (R127). -/
def cellUnreadable (v : CalValues) (r : Readings) : Bool :=
  (List.finRange 12).any (fun i =>
    !v.unusable[i] && (cellClass r.words[i] == .opened || cellClass r.words[i] == .saturated))

/-- The pass disturbs an unforced calibration: its total is INDEFINITE or at least occ_off (R127). -/
def Place.disturbs (e : Env) (p : Place) : Bool := p.total.all (fun t => decide (e.params.occOff ≤ t))

/-- The cell sums with one sample added: the codes of usable VALID and FLOOR cells (R127). -/
def addSample (v : CalValues) (r : Readings) (sums : Vector Nat 12) : Vector Nat 12 :=
  Vector.ofFn (fun i : Cell =>
    if v.unusable[i] then sums[i]
    else match cellClass r.words[i] with
      | .valid | .floor => sums[i] + cellCode r.words[i]
      | .saturated | .opened => sums[i])

/-- The new zeros: each usable cell's mean code rounded to the nearest, each unusable cell's present reference zero (R130). -/
def newZerosOf (v : CalValues) (sums : Vector Nat 12) (refZeros : Vector Word 12) : Vector Word 12 :=
  Vector.ofFn (fun i : Cell =>
    if v.unusable[i] then refZeros[i] else BitVec.ofNat 16 ((sums[i] + 16) / 32))

/-- A pass as a calibration sample, in phase SAMPLING (R127, R130). -/
def Place.calSample (e : Env) (v : CalValues) (r : Readings) (p : Place) : Place :=
  match p.cal with
  | .ended _ => p
  | .running run =>
    if run.newZeros.isSome then p
    else if cellUnreadable v r then p.endCal e .abortedCell
    else if !run.forced && p.disturbs e then p.endCal e .abortedDisturbed
    else
      let sums := addSample v r run.sums
      let zeros := if run.samples + 1 = 32 then some (newZerosOf v sums p.refZeros) else none
      { p with cal := .running { run with samples := run.samples + 1, sums := sums, newZeros := zeros } }

/-! ## The drift trim (R134 to R136) -/

/-- The place is trim-eligible at a pass (R134). -/
def Place.trimEligible (e : Env) (p : Place) : Bool :=
  p.reported == .empty && p.emptySince.any (fun t => decide (t + 60000 ≤ e.now)) &&
  p.filter.any (fun f => decide (f < e.params.occOff / 2)) && !p.calRunning

/-- The trim of a cell takes a step at this pass: it is usable and reads VALID (R135). -/
def cellTrims (v : CalValues) (r : Readings) (i : Cell) : Bool :=
  !v.unusable[i] && cellClass r.words[i] == .valid

/-- The target of a cell: its code less its reference zero (R135). -/
def Place.trimTarget (p : Place) (r : Readings) (i : Cell) : Int :=
  (cellCode r.words[i] : Int) - (p.refZeros[i].toNat : Int)

/-- One code toward the target, within -64..+64 (R135). -/
def trimToward (trim target : Int) : Int :=
  if trim < target ∧ trim < 64 then trim + 1
  else if target < trim ∧ -64 < trim then trim - 1
  else trim

/-- A target lies beyond the limit at which the trim stands (R135). -/
def trimHeld (trim target : Int) : Bool :=
  decide (64 < target ∧ trim = 64) || decide (target < -64 ∧ trim = -64)

/-- A trim step (R135); DRIFT_LIMIT rises when a cell was held (R136). -/
def Place.trimStep (v : CalValues) (r : Readings) (p : Place) : Place :=
  let held := (List.finRange 12).any (fun i => cellTrims v r i && trimHeld p.trims[i] (p.trimTarget r i))
  let stepped := { p with
    trims := Vector.ofFn (fun i : Cell =>
      if cellTrims v r i then trimToward p.trims[i] (p.trimTarget r i) else p.trims[i])
    trimDue := false }
  if held then stepped.setFault .driftLimit true else stepped

/-- The drift trim at a pass: a step when the place is eligible and a mark has fallen since the last one (R134). -/
def Place.driftTrim (e : Env) (v : CalValues) (r : Readings) (p : Place) : Place :=
  if p.trimEligible e && p.trimDue then p.trimStep v r else p

/-! ## The pass as a whole (R94, R111) -/

/-- One pass of a place at a succeeded scan: SS makes it fresh with age 0 (R66), LU writes, CL evaluates class and verdict, RU takes
the buckle and the stage, CU takes the sample and the trim, each in the order of R111; rising faults and marks are RPU's. -/
def Place.pass (e : Env) (v : CalValues) (r : Readings) (p : Place) : Place :=
  let sampled := ({ p with age := 0, fresh := true }).setFault .nodeSilent false
  let loaded := (sampled.loadPass e.params.filterShift v r).noteBelt p.buckle
  let classed := (loaded.passEvaluation e).evalVerdict e
  let reminded := (classed.noteFastened e).toStage e
  ((reminded.calSample e v r).driftTrim e v r).markReminder e p e

/-- A station reload of a listed place (R28, R96, R122): the zeros read, trims 0, LU's changes, CELL_CAL by the new unusable-cell
set (R27). -/
def Place.reload (v : CalValues) (p : Place) : Place :=
  ((p.takeZeros v.zeros).loadReload).setFault .cellCal (v.unusable.toList.any (fun b => b))

end Sys2Proof.Machine
end

