-- ==== Sys2Proof/Machine/PlaceMap.lean ====
section
/-! DEFINITION. The Place Map (R41 to R56): the rebuild of the place list and the list change with all its consequences. -/

namespace Sys2Proof.Machine

/-! ## The new list (R42, R43) -/

/-- A station is listed: ACTIVE or SILENT, or LOADING or TESTING with the retained flag set (R22). -/
def Station.listed (s : Station) : Bool :=
  match s.state with
  | .active | .silent => true
  | .loading | .testing => s.retained
  | .absent | .probing | .faulted => false

/-- The seat indices below a place count, in order (R41). -/
def seatsBelow (count : Nat) : List Seat := (List.finRange 3).filter (fun i => decide (i.val < count))

/-- The identities of a station's places, seat index 0 first (R41). -/
def Station.identities (s : Station) (c : Code) : List Identity :=
  match s.serial, s.count with
  | some serial, some count => (seatsBelow count).map (fun seat => { station := c, seat := seat, serial := serial })
  | _, _ => []

/-- The identities of a station's places when the station is listed, none when it is not. -/
def Device.offered (d : Device) (c : Code) : List Identity :=
  if (d.station c).listed then (d.station c).identities c else []

/-- The list filled from stations in the order given, each taken whole or left out: a station is left out when its places would
take the list past 16 (R43). `used` is the length of the list so far. -/
def fillList (offered : Code → List Identity) : Nat → List Code → List Identity
  | _, [] => []
  | used, c :: cs =>
    if used + (offered c).length ≤ Config.maxPlaces then
      offered c ++ fillList offered (used + (offered c).length) cs
    else fillList offered used cs

/-- The new list, from the station table as it stands (R43). -/
def Device.newList (d : Device) : List Identity := fillList d.offered 0 (List.finRange 12)

/-- One or more listed stations are left out of a list (R44). -/
def Device.leftOut (d : Device) (list : List Identity) : Bool :=
  (List.finRange 12).any (fun c => (d.offered c).any (fun i => !list.contains i))

/-! ## New places (R45) -/

/-- The calibration values ST holds for a place (R28, R44). A listed station's places always have them; the default is for
states that no run reaches. -/
def Station.valuesOf (s : Station) (seat : Seat) : CalValues :=
  s.values[seat].getD
    { zeros := Vector.replicate 12 0, gains := Vector.replicate 12 0, unusable := Vector.replicate 12 false }

/-- The record of a new place before its faults and marks: every part at the value of its owning chapter (R45, R54, R72, R74, R98,
R110, R121, R123, R134, R143, R174, R179). -/
def freshPlace (id : Identity) (values : CalValues) (stamp : Nat) : Place where
  id := id
  total := none
  atLeast := false
  degraded := false
  conc := 0
  filter := none
  buckle := .none
  leftAnchor := .none
  rightAnchor := .none
  partialCount := 0
  age := 65535
  joinStamp := stamp
  fresh := false
  reported := .unknown
  pendingClass := none
  count := 0
  verdict := .notFitted
  refZeros := values.zeros
  trims := Vector.replicate 12 0
  cal := .ended .none
  emptySince := none
  nextTrim := none
  trimDue := false
  stage := .off
  timer := 0
  fastened := false
  policy := { reminderEnable := true, childReminder := true, restraintFitted := false }
  live := 0
  sticky := { a := 0, b := 0 }
  marks := { a := 0, b := 0 }

/-- A new place with the faults live for it at joining, each of which rises (R172): CELL_CAL, and LINK_PATTERN and NODE_RESTART
where its station carries them. -/
def Device.newPlace (d : Device) (id : Identity) : Place :=
  let s := d.station id.station
  let v := s.valuesOf id.seat
  (((freshPlace id v d.stamp).setFault .cellCal (v.unusable.toList.any (fun b => b))).setFault
    .linkPattern (s.state == .testing && s.test == some (.patternOff false))).setFault
    .nodeRestart s.restarted

/-- The place that takes number `n` with an identity: the record that stays, with MAP when its number changes, or a new record
with MAP (R45, R46). -/
def Device.placeAt (d : Device) (id : Identity) (n : Nat) : Place :=
  match d.places.find? (fun p => p.id == id) with
  | some p => if d.places.findIdx (fun q => q.id == id) = n then p else p.mark .map
  | none => (d.newPlace id).mark .map

/-- The records of the new list from number `n` on. -/
def Device.placesFor (d : Device) : Nat → List Identity → List Place
  | _, [] => []
  | n, id :: ids => d.placeAt id n :: d.placesFor (n + 1) ids

/-- REMINDER on each place whose lamp-mask entry differs from the entry at its number before the change (R155). -/
def markMoved (before after : Word) : Nat → List Place → List Place
  | _, [] => []
  | n, p :: ps =>
    (if before.getLsbD n = after.getLsbD n then p else p.mark .reminder) :: markMoved before after (n + 1) ps

/-! ## What goes back to ST (R45) -/

/-- A removed place of a station that is still listed with the same serial hands its reference zeros back to the station's
calibration values (R45). -/
def Station.takeBack (s : Station) (p : Place) : Station :=
  if s.listed ∧ s.serial = some p.id.serial then
    { s with values := s.values.set p.id.seat ((s.values[p.id.seat]).map (fun v => { v with zeros := p.refZeros })) }
  else s

/-- Each removed place in turn hands its reference zeros back. -/
def takeAllBack (stations : Vector Station 12) : List Place → Vector Station 12
  | [] => stations
  | p :: ps =>
    takeAllBack (stations.set p.id.station (stations[p.id.station].takeBack p)) ps

/-! ## The list change and the rebuild -/

/-- The current generation after a list change: one more, and 1 after 255 (R47). -/
def nextGeneration (g : Byte) : Byte := if g = 255 then 1 else g + 1

/-- The list changes (R45 to R48, R155): places stay, join and leave; a removed place's calibration ends with it. -/
def Device.changeList (d : Device) (list : List Identity) : Device :=
  let places := d.placesFor 0 list
  let removed := d.places.filter (fun p => !list.contains p.id)
  ({ d with
     places := markMoved d.agg.lampMask (lampMaskOf places) 0 places
     generation := nextGeneration d.generation
     st := { d.st with stations := takeAllBack d.st.stations removed } }).pruneStores

/-- PM rebuilds the list (R43): the list changes when it differs from the old one as a sequence of identities (R45);
MAP_OVERFLOW and BAD_STATION follow the station table (R38, R44). -/
def Device.rebuild (d : Device) : Device :=
  let list := d.newList
  let changed := if list = d.places.map (·.id) then d else d.changeList list
  (changed.setGlobal .mapOverflow (d.leftOut list)).setGlobal .badStation
    ((List.finRange 12).any (fun c => (d.station c).state == .faulted))

end Sys2Proof.Machine
end

