-- ==== Sys2Proof/Machine/Link.lean ====
section
/-! DEFINITION. The Link Controller (R1 to R12): command frames, the checks of an answer, the failure run. -/

namespace Sys2Proof.Machine

/-! ## Command frames (R1 to R3) -/

/-- The command byte (R184). -/
def LinkCommand.byte : LinkCommand → Byte
  | .identify => 0x31
  | .calRead _ => 0x32
  | .calStore _ _ => 0x33
  | .excite => 0x34
  | .sample => 0x35
  | .relax => 0x36
  | .patternOn => 0x37
  | .patternOff => 0x38

/-- The payload of a command (R3, R184): place indices, zeros most significant byte first, and 1 for auto-relax set. -/
def LinkCommand.payload : LinkCommand → List Byte
  | .calRead seat => [BitVec.ofNat 8 seat.val]
  | .calStore seat zeros => BitVec.ofNat 8 seat.val :: zeros.toList.flatMap wordBytes
  | .excite => [1]
  | .identify | .sample | .relax | .patternOn | .patternOff => []

/-- The bytes of a command frame before its check byte: address value, command, length, payload (R3). -/
def frameHead (c : Code) (cmd : LinkCommand) : List Byte :=
  BitVec.ofNat 8 (c.val + 1) :: cmd.byte :: BitVec.ofNat 8 cmd.payload.length :: cmd.payload

/-- The bytes of a command frame; the check byte is the two's complement of the sum of the others (R3). -/
def commandFrame (c : Code) (cmd : LinkCommand) : List Byte :=
  frameHead c cmd ++ [-(byteSum (frameHead c cmd))]

/-- The characters of a command frame with their mark bits: 1 on the address character, 0 on every other (R2). -/
def commandChars (c : Code) (cmd : LinkCommand) : List (Bool × Byte) :=
  (commandFrame c cmd).mapIdx (fun i b => (i == 0, b))

/-- The 11 bits of a character in the order sent: one start bit, eight data bits least significant first, mark bit, stop bit 1 (R1).
That the start bit is a 0 is the model's choice (assumption 39): R1 gives no value for it. -/
def charBits (mark : Bool) (data : Byte) : List Bool :=
  false :: (byteBits data).reverse ++ [mark, true]

/-- LINKDIR: the driver is enabled while a command frame is on the line (R1, R6). -/
def LinkController.driving (lc : LinkController) : Bool :=
  lc.exchange.any (fun x => x.phase == some .sending)

/-- The attempt number of an exchange: 2 once the first attempt has failed (R6, R8). -/
def Exchange.attempt (x : Exchange) : Nat := if x.firstFailure.isSome then 2 else 1

/-! ## The answer (R4, R5) -/

/-- What an accepted answer says (R4): its result, its three flags and its payload. -/
structure Answer where
  result  : LinkResult
  boot    : Bool
  excited : Bool
  pattern : Bool
  payload : List Byte
  deriving DecidableEq, Repr

/-- LC's report of an exchange to the block that asked for it (R11): a success with the answer and the number of attempts used, or a
failure with the kind of the last attempt. -/
inductive LinkOutcome where
  | answered (answer : Answer) (attempts : Nat)
  | failed (kind : FailKind)
  deriving DecidableEq, Repr

/-- The answer length of a command on ACK (R4); for SAMPLE 25 bytes for each place of the station record's count. -/
def LinkCommand.answerLength (cmd : LinkCommand) (count : Option Nat) : Nat :=
  match cmd with
  | .identify => 7
  | .calRead _ => 48
  | .sample => 25 * count.getD 0
  | .calStore _ _ | .excite | .relax | .patternOn | .patternOff => 0

/-- A received character is well formed: stop bit 1, mark bit 0 (R1). -/
def charWellFormed (ch : RxChar) : Bool := ch.stop && !ch.mark

/-- The result fits the command: NOT_EXCITED answers SAMPLE alone (R4). -/
def resultFits (cmd : LinkCommand) (r : LinkResult) : Bool :=
  match r with
  | .notExcited => cmd == .sample
  | .ack | .refused => true

/-- The checks of the status byte (R4). -/
def statusAccepted (cmd : LinkCommand) (status : Byte) : Bool :=
  (resultOf status).any (resultFits cmd)

/-- The checks of the length byte: its range, and that it fits result and command (R4). -/
def lengthAccepted (cmd : LinkCommand) (count : Option Nat) (status len : Byte) : Bool :=
  decide (len.toNat ≤ 80) &&
  (match resultOf status with
   | some .ack => len.toNat == cmd.answerLength count
   | _ => len.toNat == 0)

/-- Mode agreement (R4): the node mode byte's excited and pattern conditions equal the status flags. -/
def modeAgrees (status mode : Byte) : Bool :=
  mode.getLsbD 0 == excitedFlag status && mode.getLsbD 1 == patternFlag status

/-- The check that the payload character at a position needs: mode agreement at the last byte of an IDENTIFY answer. -/
def payloadAccepted (cmd : LinkCommand) (rx : List Byte) : Bool :=
  if cmd = .identify ∧ rx.length = 9 then modeAgrees (rx.getD 0 0) (rx.getD 8 0) else true

/-- What one received character does to the answer in progress (R4, R5). -/
inductive RxResult where
  | more
  | drain
  | bad
  | accepted (answer : Answer)
  deriving DecidableEq, Repr

/-- The answer that a complete and accepted run of characters spells (R4), with the boot flag as received. -/
def answerOf (rx : List Byte) : Answer where
  result := (resultOf (rx.getD 0 0)).getD .ack
  boot := bootFlag (rx.getD 0 0)
  excited := excitedFlag (rx.getD 0 0)
  pattern := patternFlag (rx.getD 0 0)
  payload := (rx.drop 2).dropLast

/-- Each check as soon as its characters have arrived (R4): `rx` is the answer with the new character at its end, `wellFormed`
that character's form. A failure before the check byte drains; at the check byte it ends the attempt. -/
def checkAnswer (cmd : LinkCommand) (count : Option Nat) (rx : List Byte) (wellFormed : Bool) : RxResult :=
  match rx with
  | [] => .more
  | [status] => if wellFormed && statusAccepted cmd status then .more else .drain
  | [status, len] => if wellFormed && lengthAccepted cmd count status len then .more else .drain
  | _ :: len :: _ =>
    if rx.length = len.toNat + 3 then
      if wellFormed && byteSum rx == 0 then .accepted (answerOf rx) else .bad
    else if wellFormed && payloadAccepted cmd rx then .more else .drain

/-- The boot flag carry (R10): the answer to a retried IDENTIFY whose first attempt ended BAD_CHECK or TRUNCATED is taken with its
boot flag set. -/
def Exchange.carryBoot (x : Exchange) (a : Answer) : Answer :=
  if x.cmd = .identify ∧ (x.firstFailure = some .badCheck ∨ x.firstFailure = some .truncated) then
    { a with boot := true }
  else a

/-- The success report of an exchange (R11): the answer with the boot flag as R10 sets it, and the number of attempts used. -/
def Exchange.report (x : Exchange) (a : Answer) : LinkOutcome := .answered (x.carryBoot a) x.attempt

/-! ## The failure run (R12) -/

/-- A failed exchange's station appended; the oldest of four entries goes (R12). -/
def pushFailure (run : List Code) (c : Code) : List Code :=
  let run := run ++ [c]
  run.drop (run.length - 3)

/-- Three entries with three different station codes (R12). -/
def threeDifferent (run : List Code) : Bool :=
  match run with
  | [x, y, z] => x != y && y != z && x != z
  | _ => false

/-- The end of an exchange at LC (R7, R8, R12): the record deleted, the failure run and LINK_FAULT. -/
def Device.closeExchange (d : Device) (c : Code) (o : LinkOutcome) : Device :=
  match o with
  | .answered _ _ =>
    ({ d with lc := { d.lc with exchange := none, failureRun := [] } }).setGlobal .linkFault false
  | .failed _ =>
    let run := pushFailure d.lc.failureRun c
    let closed := { d with lc := { d.lc with exchange := none, failureRun := run } }
    if threeDifferent run then closed.setGlobal .linkFault true else closed

end Sys2Proof.Machine
end

