-- ==== Sys2Proof/Machine/Schedule.lean ====
section
/-! DEFINITION. The Scan Scheduler (R57 to R71): the excitation state of a node, the budget, who is due, and the link arbiter. -/

namespace Sys2Proof.Machine

/-! ## The excitation state after an exchange (R58) -/

/-- The EXCITE time of a state, when it is EXCITED with the time known. -/
def Excitation.knownTime : Excitation → Option Nat
  | .excited (.known t) => some t
  | .excited (.unknown _) | .relaxed | .recovering _ => none

/-- A station whose excitation state is EXCITED. -/
def Excitation.isExcited : Excitation → Bool
  | .excited _ => true
  | .relaxed | .recovering _ => false

/-- The excitation state after an exchange: `frameEnd` is the stamp of the end of the last attempt's command frame, `ended` that of
the end of the exchange (R58). IDENTIFY, CAL_READ, CAL_STORE, PATTERN_ON and PATTERN_OFF leave it. -/
def excitationAfter (old : Excitation) (cmd : LinkCommand) (o : LinkOutcome) (frameEnd ended : Nat) : Excitation :=
  match cmd with
  | .excite =>
    match o with
    | .answered a _ =>
      if a.result = .ack then .excited (.known frameEnd)
      else if a.excited then .excited (.unknown ended)
      else .recovering (ended + 2)
    | .failed _ => .recovering (frameEnd + 22)
  | .sample =>
    match o with
    | .answered a _ =>
      if a.result = .ack ∧ a.excited = false then .relaxed else .recovering (ended + 2)
    | .failed _ => old
  | .relax =>
    match o with
    | .answered a _ =>
      if a.result = .ack then .recovering (ended + 2)
      else .recovering (max (ended + 2) (old.knownTime.elim 0 (· + 22)))
    | .failed _ => .recovering (max (ended + 2) (old.knownTime.elim 0 (· + 22)))
  | .identify | .calRead _ | .calStore _ _ | .patternOn | .patternOff => old

/-! ## The excitation budget (R59, R60) -/

/-- The budget allows an EXCITE: fewer than 4 entries, or the oldest 20 ms or more in the past (R59). -/
def Device.budgetAllows (d : Device) : Bool :=
  match d.ss.history with
  | [] => true
  | oldest :: _ => decide (d.ss.history.length < 4) || d.passed oldest 20

/-- A send stamp entered in the history, the oldest of five entries removed (R59). -/
def pushStamp (history : List Nat) (stamp : Nat) : List Nat :=
  let history := history ++ [stamp]
  history.drop (history.length - 4)

/-- An EXCITE attempt begins: its send stamp is entered (R59). -/
def Device.noteExcite (d : Device) : Device :=
  { d with ss := { d.ss with history := pushStamp d.ss.history d.stamp } }

/-- How many stations are EXCITED (R60). -/
def Device.excitedCount (d : Device) : Nat :=
  (List.finRange 12).countP (fun c => (d.record c).excitation.isExcited)

/-! ## Who is due (R62) -/

/-- A long calibration runs on a place of the station. -/
def Device.calibrating (d : Device) (c : Code) : Bool :=
  d.places.any (fun p => p.id.station = c && p.calRunning)

/-- The station is due: its due time is reached, or a long calibration runs on a place of it (R62). -/
def Device.isDue (d : Device) (c : Code) : Bool :=
  (d.station c).state == .active &&
  (d.calibrating c || (d.record c).due.any (fun t => decide (t ≤ d.time.now)))

/-- The due time that the arbiter's order takes: with a long calibration running, the earlier of it and the instant at which the
state last became RELAXED (R62). -/
def Device.dueKey (d : Device) (c : Code) : Nat :=
  let due := (d.record c).due.getD 0
  if d.calibrating c then min due (d.record c).relaxedAt else due

/-! ## The arbiter (R69) -/

/-- The station with the least key, the lowest code among equals. -/
def leastBy (key : Code → Nat) : List Code → Option Code
  | [] => none
  | c :: cs =>
    match leastBy key cs with
    | none => some c
    | some k => if key c ≤ key k then some c else some k

/-- The link is free: LC idle, the post-reset quiet passed, no retry pending (R69; a pending retry keeps its record). -/
def Device.linkFree (d : Device) : Bool := d.lc.quietSeen && d.lc.exchange.isNone

/-- The class 2 command of a station: the SAMPLE of a scan in step SAMPLING, the RELAX of one in step RELAXING (R69). -/
def Device.scanCommand (d : Device) (c : Code) : Option LinkCommand :=
  match (d.record c).scan with
  | some sc =>
    match sc.step with
    | .sampling => some .sample
    | .relaxing => some .relax
    | .exciting | .settling => none
  | none => none

/-- The place of a station's scan in the order of first EXCITE attempts. -/
def Device.scanOrder (d : Device) (c : Code) : Nat := (d.record c).scan.elim 0 (·.order)

/-- A waiting class 3 request is eligible: always, but for a CAL_STORE while its station is EXCITED (R69). -/
def Device.requestEligible (d : Device) (r : LinkRequest) : Bool :=
  match r.cmd with
  | .calStore _ _ => !(d.record r.station).excitation.isExcited
  | _ => true

/-- A CAL_STORE of the station waits (R69). -/
def Device.storeWaits (d : Device) (c : Code) : Bool :=
  d.ss.waiting.any (fun r => r.station = c && match r.cmd with
    | .calStore _ _ => true
    | _ => false)

/-- An EXCITE to begin a scan of the station is eligible (R69 class 4). -/
def Device.scanEligible (d : Device) (c : Code) : Bool :=
  d.isDue c && (d.record c).excitation == .relaxed && (d.record c).scan.isNone && !d.storeWaits c &&
  d.budgetAllows && decide (d.excitedCount < 4)

/-- What the arbiter chooses. -/
inductive Choice where
  | step (station : Code) (cmd : LinkCommand)
  | waiting (request : LinkRequest)
  | scan (station : Code)
  deriving DecidableEq, Repr

/-- The arbiter's choice: the first class that holds an eligible request, and the first request in that class's order (R69). -/
def Device.choose (d : Device) : Option Choice :=
  match leastBy d.scanOrder ((List.finRange 12).filter (fun c => (d.scanCommand c).isSome)) with
  | some c => (d.scanCommand c).map (Choice.step c)
  | none =>
    match d.ss.waiting.find? d.requestEligible with
    | some r => some (.waiting r)
    | none => (leastBy d.dueKey ((List.finRange 12).filter d.scanEligible)).map .scan

/-- LC starts an exchange: a record with attempt 1 in phase SENDING (R7). -/
def Device.launch (d : Device) (c : Code) (cmd : LinkCommand) (block : Block) : Device :=
  { d with lc := { d.lc with exchange := some {
      station := c, cmd := cmd, block := block, firstFailure := none, phase := some .sending,
      frameEnd := d.stamp, rx := [] } } }

/-- SS begins a scan of a station (R59, R62, R63): the send stamp entered, the scan in step EXCITING, the due time moved on by the
period in use, the EXCITE handed to LC. -/
def Device.startScan (d : Device) (c : Code) : Device :=
  let scanned := d.setRecord c { d.record c with
    due := some (d.stamp + d.ss.period)
    scan := some { start := d.stamp, order := d.ss.nextOrder, step := .exciting } }
  ({ scanned with ss := { scanned.ss with nextOrder := scanned.ss.nextOrder + 1 } }).noteExcite.launch c .excite .ss

/-- The choice carried out. -/
def Device.grant (d : Device) (choice : Choice) : Device :=
  match choice with
  | .step c cmd => d.launch c cmd .ss
  | .waiting r =>
    ({ d with ss := { d.ss with waiting := d.ss.waiting.eraseP d.requestEligible } }).launch r.station r.cmd r.block
  | .scan c => d.startScan c

/-! ## The retry (R8, R9) -/

/-- A retry goes on the line: phase SENDING, the send stamp of an EXCITE entered (R8, R9, R59). -/
def Device.launchRetry (d : Device) (x : Exchange) : Device :=
  let sent := { d with lc := { d.lc with exchange := some { x with
    phase := some .sending, frameEnd := d.stamp, rx := [] } } }
  if x.cmd = .excite then sent.noteExcite else sent

/-- Attempt 1 has failed (R8, R9): the record stays with the failure kind; the retry goes at once, or is held when it is an EXCITE
that the budget does not allow now. -/
def Device.retry (d : Device) (x : Exchange) (k : FailKind) : Device :=
  let x2 := { x with firstFailure := some k, phase := none, rx := [] }
  if x.cmd = .excite ∧ d.budgetAllows = false then { d with lc := { d.lc with exchange := some x2 } }
  else d.launchRetry x2

end Sys2Proof.Machine
end

