-- ==== Sys2Proof/Machine/Stations.lean ====
section
/-! DEFINITION. The Station Table (R21 to R40), the outcomes of scans (R63 to R68) and of CAL_STORE (R131), and the end of an
exchange as a whole. -/

namespace Sys2Proof.Machine

/-! ## Requests of loading and testing -/

/-- The lowest place index whose load status is NOT_READ (R26). -/
def Station.nextToRead (s : Station) : Option Seat :=
  (seatsBelow (s.count.getD 0)).find? (fun seat => (s.load[seat]).isNone)

/-- The loading is complete (R28): the values read are handed on, a station reload of the listed places, TESTING. -/
def Device.loadingComplete (d : Device) (c : Code) : Device :=
  let s := { d.station c with
    values := (d.station c).load, state := .testing, test := some (.patternOn false) }
  ((d.setStation c s).mapPlaces (Place.ofStation c (fun p => p.reload (s.valuesOf p.id.seat)))).ask c .patternOn .st

/-- ST asks for the next CAL_READ, or finds the loading complete (R26, R28). -/
def Device.continueLoading (d : Device) (c : Code) : Device :=
  match (d.station c).nextToRead with
  | some seat => d.ask c (.calRead seat) .st
  | none => d.loadingComplete c

/-- The first loading exchange after an IDENTIFY answer: PATTERN_OFF when it carried the pattern flag, else CAL_READ (R26). -/
def Device.askLoading (d : Device) (c : Code) (pattern : Bool) : Device :=
  if pattern then d.ask c .patternOff .st else d.continueLoading c

/-! ## Changes of state -/

/-- A station record entering LOADING: every load status NOT_READ (R26); SILENT times and a pending test end. -/
def Station.toLoading (s : Station) (retained : Bool) : Station :=
  { s with state := .loading, retained := retained, load := Vector.replicate 3 none
           silentSince := none, nextReprobe := none, testPending := false, test := none }

/-- A station becomes ABSENT (R21, R24, R28, R31, R35): its record as at reset, its waiting requests withdrawn (R36). -/
def Device.toAbsent (d : Device) (c : Code) : Device := (d.setStation c Station.absent).withdraw c

/-- A station becomes FAULTED (R24, R25, R30): it keeps serial and count; leaving SILENT its failure count becomes 0 (R31). -/
def Device.toFaulted (d : Device) (c : Code) : Device :=
  let s := d.station c
  d.setStation c { s with
    state := .faulted, retained := false, test := none, restarted := false, silentSince := none, nextReprobe := none
    failures := if s.state = .silent then 0 else s.failures }

/-- A station becomes ACTIVE (R30, R34): failure count 0, retained clear, due at this event's stamp (R62); NODE_RESTART ends (R38),
and with it the pattern test. -/
def Device.toActive (d : Device) (c : Code) : Device :=
  let s := { d.station c with
    state := .active, failures := 0, retained := false, silentSince := none, nextReprobe := none
    test := none, restarted := false }
  ((d.setStation c s).setRecord c { d.record c with due := some d.stamp }).mapPlaces
    (Place.ofStation c (fun p => p.setFault .nodeRestart false))

/-- Every calibration running on a listed place of the station ends ABORTED_NODE, and its waiting CAL_STORE is withdrawn
(R128). -/
def Device.abortNode (d : Device) (c : Code) : Device :=
  (d.mapPlaces (Place.ofStation c (fun p => p.abortCal d.env .abortedNode))).pruneStores

/-- A node restart shown by an answer: LOADING beginning with a confirming IDENTIFY; a retained station's places take NODE_RESTART
(R32, R33). -/
def Device.reload (d : Device) (c : Code) (retained : Bool) (failures : Nat) : Device :=
  let s := { (d.station c).toLoading retained with
    failures := failures, restarted := retained || (d.station c).restarted }
  let placed := (d.setStation c s).mapPlaces (Place.ofStation c (fun p => p.setFault .nodeRestart retained))
  placed.ask c .identify .st

/-- A node restart seen by a scan of an ACTIVE station or by its CAL_STORE (R32, R68, R131). -/
def Device.nodeRestart (d : Device) (c : Code) : Device := ((d.stopScanning c).abortNode c).reload c true 0

/-! ## The pattern test as LINK_TEST (R37) -/

/-- A pending LINK_TEST is taken up: TESTING, retained, and no longer scanned (R37, R62). -/
def Device.beginTest (d : Device) (c : Code) : Device :=
  let s := { d.station c with
    state := .testing, retained := true, testPending := false, test := some (.patternOn false) }
  ((d.setStation c s).stopScanning c).ask c .patternOn .st

/-- The test begins when it is pending on an ACTIVE station that has no scan in progress and no calibration running (R37). -/
def Device.takeUpTest (d : Device) (c : Code) : Device :=
  if (d.station c).state = .active ∧ (d.station c).testPending = true ∧ (d.record c).scan = none ∧ d.calibrating c = false
  then d.beginTest c else d

/-! ## The end of a scan (R31, R63 to R66) -/

/-- The scan in progress of a station ends. -/
def Device.endScan (d : Device) (c : Code) : Device := d.setRecord c { d.record c with scan := none }

/-- The third consecutive failed scan makes the station SILENT (R31): SILENT-entry time, re-probe marks from 100 ms on (R34), no
longer scanned (R62), a pending test dropped (R37), its calibrations aborted (R128). -/
def Device.toSilent (d : Device) (c : Code) : Device :=
  let s := { d.station c with
    state := .silent, failures := 3, silentSince := some d.stamp, nextReprobe := some (d.stamp + 100), testPending := false }
  ((d.setStation c s).stopScanning c).abortNode c

/-- A scan ends failed (R31): the failure count, SILENT at 3, else a pending LINK_TEST is taken up (R37). -/
def Device.scanFailed (d : Device) (c : Code) : Device :=
  let ended := d.endScan c
  let n := (d.station c).failures + 1
  if 3 ≤ n then ended.toSilent c
  else (ended.setStation c { d.station c with failures := n }).takeUpTest c

/-- CU asks for a CAL_STORE for each place that entered phase STORING at this event, in place order (R130). -/
def Device.askStores (d : Device) : List Place → List Place → Device
  | p :: ps, q :: qs =>
    match q.cal with
    | .running run =>
      match run.newZeros with
      | some zeros =>
        if p.storing then d.askStores ps qs
        else (d.ask q.id.station (.calStore q.id.seat zeros) .cu).askStores ps qs
      | none => d.askStores ps qs
    | .ended _ => d.askStores ps qs
  | _, _ => d

/-- A scan ends succeeded (R66): a pass of each listed place of the station, the failure count 0 (R31), CAL_STOREs asked for (R130),
a pending LINK_TEST taken up (R37). -/
def Device.scanSucceeded (d : Device) (c : Code) (payload : List Byte) : Device :=
  let s := d.station c
  let passed := d.mapPlaces (Place.ofStation c (fun p =>
    p.pass d.env (s.valuesOf p.id.seat) (readingsOf payload p.id.seat)))
  let counted := (passed.endScan c).setStation c { s with failures := 0 }
  (counted.askStores d.places passed.places).takeUpTest c

/-- The outcome of an exchange of a scan (R63 to R65). A boot flag hands the answer to ST (R32). -/
def Device.scanOutcome (d : Device) (c : Code) (cmd : LinkCommand) (o : LinkOutcome) : Device :=
  match o with
  | .answered a _ =>
    if a.boot then d.nodeRestart c
    else match cmd with
    | .excite =>
      if a.result = .ack then d.setScanStep c .settling
      else if a.excited then d.setScanStep c .relaxing
      else d.scanFailed c
    | .sample =>
      if a.result = .ack ∧ a.excited = true ∧ a.pattern = false then d.scanSucceeded c a.payload
      else d.setScanStep c .relaxing
    | _ => d.scanFailed c
  | .failed _ =>
    match cmd with
    | .sample => d.setScanStep c .relaxing
    | _ => d.scanFailed c

/-! ## IDENTIFY outcomes (R24, R25, R34) -/

/-- ST records the serial of an ACK answer, and its place count when that lies in 1..3 (R21, R24). -/
def Station.recordIdentity (s : Station) (payload : List Byte) : Station :=
  { s with serial := some (identitySerial payload)
           count := if countAcceptable (identityCount payload) then some (identityCount payload) else s.count }

/-- Check 1 of R25: the code read equals the code addressed, and the place count lies in 1..3. -/
def identityAcceptable (c : Code) (payload : List Byte) : Bool :=
  identityCode payload == c.val + 1 && countAcceptable (identityCount payload)

/-- Check 2 of R25: every other SILENT station with the serial becomes ABSENT. -/
def Device.dropMoved (d : Device) (c : Code) (serial : Serial) : Device :=
  (List.finRange 12).foldl (fun d k =>
    if k ≠ c ∧ (d.station k).state = .silent ∧ (d.station k).serial = some serial then d.toAbsent k else d) d

/-- Check 3 of R25: another station that is ACTIVE, LOADING or TESTING has the serial. -/
def Device.serialInUse (d : Device) (c : Code) (serial : Serial) : Bool :=
  (List.finRange 12).any (fun k => k ≠ c &&
    ((d.station k).state == .active || (d.station k).state == .loading || (d.station k).state == .testing) &&
    (d.station k).serial == some serial)

/-- Checks 2 to 4 of R25 on a recorded identity: FAULTED, or LOADING with the retained flag clear and the failure count 0. -/
def Device.takeSeat (d : Device) (c : Code) (payload : List Byte) (pattern : Bool) : Device :=
  let moved := d.dropMoved c (identitySerial payload)
  if moved.serialInUse c (identitySerial payload) then moved.toFaulted c
  else
    (moved.setStation c { (moved.station c).toLoading false with failures := 0, restarted := false }).askLoading c pattern

/-- The outcome of a probe IDENTIFY (R24, R25). -/
def Device.probeOutcome (d : Device) (c : Code) (o : LinkOutcome) : Device :=
  match o with
  | .failed _ => d.toAbsent c
  | .answered a _ =>
    if a.result = .ack then
      let known := d.setStation c ((d.station c).recordIdentity a.payload)
      if identityAcceptable c a.payload then known.takeSeat c a.payload a.pattern else known.toFaulted c
    else (d.setStation c { d.station c with serial := none, count := none }).toFaulted c

/-- An ACK answer is that of the seat the record holds: same serial and place count (R34). -/
def Station.sameSeat (s : Station) (payload : List Byte) : Bool :=
  s.serial == some (identitySerial payload) && s.count == some (identityCount payload)

/-- The outcome of a SILENT re-probe (R34). -/
def Device.reprobeOutcome (d : Device) (c : Code) (o : LinkOutcome) : Device :=
  match o with
  | .failed _ => d
  | .answered a _ =>
    if a.result = .ack then
      let s := d.station c
      let known := d.setStation c (s.recordIdentity a.payload)
      if !identityAcceptable c a.payload then known.toFaulted c
      else if s.sameSeat a.payload then
        if a.boot then
          ((d.setStation c { s.toLoading true with failures := 0, restarted := true }).mapPlaces
            (Place.ofStation c (fun p => p.setFault .nodeRestart true))).askLoading c a.pattern
        else if a.pattern then
          (d.setStation c { s.toLoading true with failures := 0 }).askLoading c true
        else d.toActive c
      else known.takeSeat c a.payload a.pattern
    else d

/-- The outcome of a confirming IDENTIFY (R26, R34): as a re-probe, but a failure or refusal makes the station ABSENT, and the same
seat continues the loading whatever its boot flag. -/
def Device.confirmOutcome (d : Device) (c : Code) (o : LinkOutcome) : Device :=
  match o with
  | .failed _ => d.toAbsent c
  | .answered a _ =>
    if a.result = .ack then
      let s := d.station c
      let known := d.setStation c (s.recordIdentity a.payload)
      if !identityAcceptable c a.payload then known.toFaulted c
      else if s.sameSeat a.payload then d.askLoading c a.pattern
      else known.takeSeat c a.payload a.pattern
    else d.toAbsent c

/-! ## Loading and testing outcomes (R26 to R33) -/

/-- The outcome of a loading exchange (R26 to R28, R33). The boot flag is looked at before the result: an answer REFUSED with the boot
flag set loads the station again and does not make it ABSENT (the model's choice, assumption 33). -/
def Device.loadingOutcome (d : Device) (c : Code) (cmd : LinkCommand) (o : LinkOutcome) : Device :=
  match cmd with
  | .identify => d.confirmOutcome c o
  | _ =>
    match o with
    | .failed _ => d.toAbsent c
    | .answered a _ =>
      if a.boot then d.reload c (d.station c).retained (d.station c).failures
      else if a.result = .ack then
        match cmd with
        | .calRead seat =>
          let s := d.station c
          (d.setStation c { s with load := s.load.set seat (some (calValuesOf a.payload)) }).continueLoading c
        | _ => d.continueLoading c
      else d.toAbsent c

/-- ST goes on to the next exchange of the pattern test (R29). -/
def Device.testNext (d : Device) (c : Code) (step : TestStep) (cmd : LinkCommand) : Device :=
  (d.setStation c { d.station c with test := some step }).ask c cmd .st

/-- The SAMPLE answer of the pattern test matches (R30): ACK, pattern flag set, every place the fixed content. -/
def patternMatches (count : Option Nat) (a : Answer) : Bool :=
  a.result == .ack && a.pattern && a.payload == patternPayload (count.getD 0)

/-- The outcome of an exchange of the pattern test (R29, R30, R33). The boot flag is looked at before the result and before the
comparison with the pattern (the model's choice, assumption 33), but for the PATTERN_OFF after a mismatch (assumption 12). -/
def Device.testingOutcome (d : Device) (c : Code) (o : LinkOutcome) : Device :=
  match (d.station c).test with
  | some (.patternOff false) => d.toFaulted c
  | test =>
    match o with
    | .failed _ => d.toAbsent c
    | .answered a _ =>
      if a.boot then d.reload c (d.station c).retained (d.station c).failures
      else match test with
      | some (.patternOn again) =>
        if a.result = .ack then d.testNext c .sample .sample
        else if a.excited ∧ again = false then d.testNext c .relax .relax
        else d.toAbsent c
      | some .relax => d.testNext c (.patternOn true) .patternOn
      | some .sample =>
        if patternMatches (d.station c).count a then d.testNext c (.patternOff true) .patternOff
        else
          (d.mapPlaces (Place.ofStation c (fun p => p.setFault .linkPattern true))).testNext c (.patternOff false) .patternOff
      | some (.patternOff _) => if a.result = .ack then d.toActive c else d.toAbsent c
      | none => d

/-- The outcome of an exchange that ST asked for, by the station's state. -/
def Device.stationOutcome (d : Device) (c : Code) (cmd : LinkCommand) (o : LinkOutcome) : Device :=
  match (d.station c).state with
  | .probing | .faulted => d.probeOutcome c o
  | .silent => d.reprobeOutcome c o
  | .loading => d.loadingOutcome c cmd o
  | .testing => d.testingOutcome c o
  | .absent | .active => d

/-! ## The start-up probe sequence and start-up completion (R39, R40) -/

/-- The probe of a station is asked for: an ABSENT station becomes PROBING, a FAULTED one stays so (R23, R39). -/
def Device.askProbe (d : Device) (c : Code) : Device :=
  let s := d.station c
  (if s.state = .absent then d.setStation c { s with state := .probing } else d).ask c .identify .st

/-- The station code after one, if there is one. -/
def nextCode (c : Code) : Option Code := if h : c.val + 1 < 12 then some ⟨c.val + 1, h⟩ else none

/-- At the end of a start-up probe ST first asks for the probe of the next station code (R39). -/
def Device.startupNext (d : Device) (c : Code) : Device :=
  if d.st.startup = some c ∧ (d.station c).state = .probing then
    let moved := { d with st := { d.st with startup := nextCode c } }
    match nextCode c with
    | some k => moved.askProbe k
    | none => moved
  else d

/-- A place at a change of the operating mode: CL's verdict, then RU's stage (R109, R151). -/
def Place.modeChanged (e0 e : Env) (p : Place) : Place := (p.evalVerdict e).remind e0 p e

/-- Start-up completes (R40): the flag set, START_UP becomes RUN, the first probe mark 500 ms on (R23). -/
def Device.completeStartup (d : Device) : Device :=
  let done := { d with startupDone := true, st := { d.st with nextProbe := some (d.stamp + 500) } }
  if d.mode = .startUp then
    let run := { done with mode := .run }
    run.mapPlaces (Place.modeChanged d.env run.env)
  else done

/-- A station is being taken in: PROBING, LOADING or TESTING (R40). -/
def Station.takingIn (s : Station) : Bool := s.state == .probing || s.state == .loading || s.state == .testing

/-- The first condition of start-up completion (R40). -/
def Device.startupFinished (d : Device) : Bool :=
  !d.startupDone && d.st.startup.isNone && (List.finRange 12).all (fun c => !(d.station c).takingIn)

/-! ## The end of an exchange -/

/-- The outcome of a CAL_STORE (R131); discarded when its calibration has ended (R128, R129). A boot flag is taken last, as a node
restart (R32). -/
def Device.storeOutcome (d : Device) (c : Code) (seat : Seat) (o : LinkOutcome) : Device :=
  if d.places.any (fun p => p.id.station = c && p.id.seat = seat && p.storing) then
    let acked := match o with
      | .answered a _ => a.result == .ack
      | .failed _ => false
    let boot := match o with
      | .answered a _ => a.boot
      | .failed _ => false
    let ended := d.mapPlaces (Place.ofStation c (fun p => if p.id.seat = seat then p.storeEnded d.env acked else p))
    if boot then ended.nodeRestart c else ended
  else d

/-- The requesting block takes the outcome (R11). -/
def Device.deliver (d : Device) (x : Exchange) (o : LinkOutcome) : Device :=
  match x.block with
  | .ss => if (d.record x.station).scan.isSome then d.scanOutcome x.station x.cmd o else d
  | .st => (d.startupNext x.station).stationOutcome x.station x.cmd o
  | .cu =>
    match x.cmd with
    | .calStore seat _ => d.storeOutcome x.station seat o
    | _ => d

/-- A SILENT expiry that waited for the end of a re-probe in flight (R35). -/
def Device.lateExpiry (d : Device) (c : Code) : Device :=
  if (d.station c).state = .silent ∧ (d.station c).silentSince.any (fun t => d.passed t 2000) = true then d.toAbsent c else d

/-- An exchange ends (R7, R8, R11): LC's record and failure run, the excitation state (R58), the requester, a waiting SILENT expiry,
the place list (R43), start-up completion (R40). -/
def Device.endExchange (d : Device) (x : Exchange) (o : LinkOutcome) : Device :=
  let closed := d.closeExchange x.station o
  let seen := closed.setExcitation x.station
    (excitationAfter (closed.record x.station).excitation x.cmd o x.frameEnd closed.stamp)
  let delivered := seen.deliver x o
  let expired := if x.block = .st then delivered.lateExpiry x.station else delivered
  let listed := expired.rebuild
  if listed.startupFinished then listed.completeStartup else listed

/-- An attempt ends failed (R8): a retry after attempt 1, the end of the exchange after attempt 2. -/
def Device.attemptFailed (d : Device) (x : Exchange) (k : FailKind) : Device :=
  if x.firstFailure = none then d.retry x k else d.endExchange x (.failed k)

end Sys2Proof.Machine
end

