-- ==== Sys2Proof/Machine/Records.lean ====
section
/-! DEFINITION. The words of the place table as a port reads them (R161, R165, R183; "Place record words", "Station and global
record words"). -/

namespace Sys2Proof.Machine

/-! ## Code values -/

/-- The code of a class, the child-seat mode apart. -/
def Class.code : Class → BitVec 3
  | .empty => 0
  | .small => 1
  | .adult => 2
  | .childAnchored => 3
  | .childBelted => 3
  | .unknown => 4

/-- The child-seat mode bit: 0 ANCHORED or absent, 1 BELTED. -/
def Class.modeBit : Class → BitVec 1
  | .childBelted => 1
  | .empty | .small | .adult | .childAnchored | .unknown => 0

/-- The code of a pending class, 7 when absent. -/
def pendingCode : Option Class → BitVec 3
  | none => 7
  | some .empty => 0
  | some .small => 1
  | some .adult => 2
  | some .childAnchored => 3
  | some .unknown => 4
  | some .childBelted => 5

/-- The code of a verdict. -/
def Verdict.code : Verdict → BitVec 2
  | .notFitted => 0
  | .enable => 1
  | .suppress => 2

/-- The code of a reminder stage. -/
def Stage.code : Stage → BitVec 3
  | .off => 0
  | .watch => 1
  | .lamp => 2
  | .chime => 3
  | .lapsed => 4

/-- The code of a switch reading. -/
def Reading.code : Reading → BitVec 2
  | .none => 0
  | .unlatched => 1
  | .latched => 2
  | .fault => 3

/-- The code of a calibration state. -/
def Calibration.code : Calibration → BitVec 3
  | .ended .none => 0
  | .running _ => 1
  | .ended .done => 2
  | .ended .storeFail => 3
  | .ended .abortedCell => 4
  | .ended .abortedDisturbed => 5
  | .ended .abortedNode => 6
  | .ended .abortedFrozen => 7

/-- The code of a station state. -/
def StationState.code : StationState → BitVec 3
  | .absent => 0
  | .probing => 1
  | .loading => 2
  | .testing => 3
  | .active => 4
  | .silent => 5
  | .faulted => 6

/-- The code of an operating mode. -/
def Mode.code : Mode → BitVec 2
  | .startUp => 0
  | .run => 1
  | .frozen => 2

/-! ## Place record words -/

/-- Word 0 of a place record. -/
def Device.placeWord0 (d : Device) (p : Place) : Word :=
  p.reported.code ++ p.reported.modeBit ++ p.verdict.code ++ p.stage.code ++ p.buckle.code ++
  BitVec.ofBool (d.accepted.contains p.id) ++ BitVec.ofBool p.fresh ++ p.cal.code

/-- Word 1: the filtered load, 65535 when uninitialised. -/
def Place.word1 (p : Place) : Word := BitVec.ofNat 16 (p.filter.getD 65535)

/-- Word 2: the total, 65535 when INDEFINITE. -/
def Place.word2 (p : Place) : Word := BitVec.ofNat 16 (p.total.getD 65535)

/-- Word 3: the anchors, the flags INDEFINITE, DEGRADED and AT_LEAST, and the concentration. -/
def Place.word3 (p : Place) : Word :=
  p.rightAnchor.code ++ p.leftAnchor.code ++ BitVec.ofBool p.total.isNone ++ BitVec.ofBool p.degraded ++
  BitVec.ofBool p.atLeast ++ BitVec.ofNat 9 p.conc

/-- Word 4: station code, seat index, policy, pending class and count. -/
def Place.word4 (p : Place) : Word :=
  BitVec.ofNat 4 (p.id.station.val + 1) ++ BitVec.ofNat 2 p.id.seat.val ++ BitVec.ofBool p.policy.restraintFitted ++
  BitVec.ofBool p.policy.childReminder ++ BitVec.ofBool p.policy.reminderEnable ++ pendingCode p.pendingClass ++
  BitVec.ofNat 4 p.count

/-- A word of a place record as a port reads it: word 6 holds that port's sticky set (R165). -/
def Device.placeWord (d : Device) (port : Port) (p : Place) (w : Nat) : Word :=
  match w with
  | 0 => d.placeWord0 p
  | 1 => p.word1
  | 2 => p.word2
  | 3 => p.word3
  | 4 => p.word4
  | 5 => p.live.setWidth 16
  | 6 => (p.sticky.get port).setWidth 16
  | 7 => BitVec.ofNat 16 p.age
  | _ => 0

/-! ## Station record words -/

/-- Word 0 of a station record: place count, 0 when absent, and state. -/
def Station.word0 (s : Station) : Word := 0#11 ++ BitVec.ofNat 2 (s.count.getD 0) ++ s.state.code

/-- A word of a station record; absent fields read 0 (R183). -/
def Station.word (s : Station) (w : Nat) : Word :=
  match w with
  | 0 => s.word0
  | 1 => (s.serial.getD 0).extractLsb' 16 16
  | 2 => (s.serial.getD 0).extractLsb' 0 16
  | 3 => BitVec.ofNat 16 s.failures
  | _ => 0

/-! ## Global record words -/

/-- The vehicle state word: ignition, lapse flag, speed unknown, speed (0 while unknown). -/
def Vehicle.word (v : Vehicle) : Word :=
  BitVec.ofBool v.ignition ++ 0#5 ++ BitVec.ofBool v.lapsed ++ BitVec.ofBool v.speed.isNone ++
  BitVec.ofNat 8 (v.speed.getD 0)

/-- The word of chime demand and unfastened count. -/
def Aggregates.word (a : Aggregates) : Word := BitVec.ofBool a.chime ++ 0#10 ++ BitVec.ofNat 5 a.unfastened

/-- A word of the global record as a port reads it: word 4 holds that port's global sticky set (R161, R165). -/
def Device.globalWord (d : Device) (port : Port) (w : Nat) : Word :=
  match w with
  | 0 => 0#13 ++ BitVec.ofBool d.startupDone ++ d.mode.code
  | 1 => d.generation.setWidth 16
  | 2 => d.acceptedGen.setWidth 16
  | 3 => d.live.setWidth 16
  | 4 => (d.report.get port).stickyGlobal.setWidth 16
  | 5 => d.vehicle.word
  | 6 => d.agg.lampMask
  | 7 => d.agg.word
  | _ => 0

/-! ## The table (R165) -/

/-- A table word as a port reads it: place records, station records, the global record; a place number at or above the list
length reads 0. -/
def Device.tableWord (d : Device) (port : Port) (i : Nat) : Word :=
  if i < 128 then
    match d.places[i / 8]? with
    | some p => d.placeWord port p (i % 8)
    | none => 0
  else if h : i < 176 then (d.station ⟨(i - 128) / 4, by omega⟩).word ((i - 128) % 4)
  else d.globalWord port (i - 176)

/-- A run of table words. -/
def Device.tableRun (d : Device) (port : Port) (start count : Nat) : List Word :=
  (List.range' start count).map (d.tableWord port)

end Sys2Proof.Machine
end

