-- ==== Sys2Proof/Machine/LinkEvents.lean ====
section
/-! DEFINITION. The meanings of RESET and of the seat-link rows of the table. An event whose condition does not hold is no event
of the part and leaves the state as it is (assumption 1). -/

namespace Sys2Proof.Machine

/-- The outcome of a step of this machine. -/
abbrev Result := Host.Outcome State Fault Refusal

/-- An event that changes the blocks other than PU: the change, then the recomputed values and RPU's work (R151, R182). -/
def State.event (s : State) (f : Device → Device) : Result := .next { s with dev := (f s.dev).finish }

/-- RESET (R39, R185): every block in its reset state, with the seat-link driver released, both attention lines released and each data
out in high impedance; the commands that wait go on waiting. -/
def execReset (s : State) : Result := .next { State.reset with pending := s.pending }

/-- LINK_QUIET_PASSED (R6): after reset the line has been quiet for 1.0 ms, so LC may start its first exchange. -/
def execLinkQuietPassed (s : State) : Result :=
  if s.dev.lc.quietSeen then .next s
  else s.event (fun d => { d with lc := { d.lc with quietSeen := true } })

/-- ARBITER_CHOICE (R69, R7): the link is free and a request is eligible, so SS hands it to LC. -/
def execArbiterChoice (m : Moment) (s : State) : Result :=
  if s.dev.linkFree then
    match (s.dev.atMoment m).choose with
    | some choice => s.event (fun d => (d.atMoment m).grant choice)
    | none => .next s
  else .next s

/-- COMMAND_FRAME_SENT (R7): the frame's last stop bit ends, so the driver is released and the answer wait begins. -/
def execCommandFrameSent (m : Moment) (s : State) : Result :=
  match s.dev.lc.exchange with
  | some x =>
    if x.phase = some .sending then
      s.event (fun d => { d.atMoment m with lc := { d.lc with
        exchange := some { x with phase := some .awaiting, frameEnd := (d.atMoment m).stamp } } })
    else .next s
  | none => .next s

/-- The effect of a character taken as answer content (R4, R5, R7). -/
def Device.takeChar (d : Device) (x : Exchange) (ch : RxChar) : Device :=
  let rx := x.rx ++ [ch.data]
  match checkAnswer x.cmd (d.station x.station).count rx (charWellFormed ch) with
  | .more => { d with lc := { d.lc with exchange := some { x with phase := some .receiving, rx := rx } } }
  | .drain => { d with lc := { d.lc with exchange := some { x with phase := some .draining, rx := rx } } }
  | .bad => d.attemptFailed { x with rx := rx } .badCheck
  | .accepted a => d.endExchange x (x.report a)

/-- LINK_CHARACTER_RECEIVED (R4, R6): a character of the answer in progress is checked; one received while LC is idle, drives the
line or drains is discarded. -/
def execLinkCharacterReceived (m : Moment) (ch : RxChar) (s : State) : Result :=
  match s.dev.lc.exchange with
  | some x =>
    if x.phase = some .awaiting ∨ x.phase = some .receiving then s.event (fun d => (d.atMoment m).takeChar x ch)
    else .next s
  | none => .next s

/-- An attempt in a phase ends failed with a kind; no other phase has such an event. -/
def State.attemptEnds (s : State) (m : Moment) (phase : Phase) (k : FailKind) : Result :=
  match s.dev.lc.exchange with
  | some x =>
    if x.phase = some phase then s.event (fun d => (d.atMoment m).attemptFailed x k) else .next s
  | none => .next s

/-- NO_ANSWER_TIMEOUT (R5): 1.0 ms after the command frame with no answer character. -/
def execNoAnswerTimeout (m : Moment) (s : State) : Result := s.attemptEnds m .awaiting .noAnswer

/-- TRUNCATED_TIMEOUT (R5): 0.3 ms with no character while the answer is incomplete. -/
def execTruncatedTimeout (m : Moment) (s : State) : Result := s.attemptEnds m .receiving .truncated

/-- DRAIN_QUIET_TIMEOUT (R4): 0.3 ms of quiet in phase DRAINING. -/
def execDrainQuietTimeout (m : Moment) (s : State) : Result := s.attemptEnds m .draining .badCheck

/-- EXCITE_RETRY_START (R9): a held EXCITE retry starts at the first instant the budget allows it. -/
def execExciteRetryStart (m : Moment) (s : State) : Result :=
  match s.dev.lc.exchange with
  | some x =>
    if x.phase = none ∧ s.dev.budgetAllows = true then s.event (fun d => (d.atMoment m).launchRetry x) else .next s
  | none => .next s

end Sys2Proof.Machine
end

