-- ==== Sys2Proof/Machine/TimeEvents.lean ====
section
/-! DEFINITION. The meanings of the table's time-driven rows: the scheduler's times (R58 to R73), the station table's (R23, R34, R35,
R40), the reminder's (R139, R149, R150) and the trim marks (R134). Each holds back until its instant is reached; one that is not
due is no event and leaves the state as it is (assumption 1). -/

namespace Sys2Proof.Machine

/-! ## The scan scheduler -/

/-- SETTLE_PASSED (R64): 3 ms after the EXCITE time the scan's SAMPLE is asked for. -/
def execSettlePassed (c : Code) (s : State) : Result :=
  match (s.dev.record c).scan, (s.dev.record c).excitation.knownTime with
  | some sc, some t =>
    if sc.step = .settling ∧ s.dev.passed t 3 = true then s.event (fun d => d.setScanStep c .sampling) else .next s
  | _, _ => .next s

/-- The scan's SAMPLE has not begun on the link: the scan is in step SETTLING, or in SAMPLING with no exchange of it in flight
(R67). -/
def Device.sampleNotBegun (d : Device) (c : Code) : Bool :=
  match (d.record c).scan with
  | some sc =>
    sc.step == .settling ||
    (sc.step == .sampling && !d.lc.exchange.any (fun x => x.station = c && x.block = .ss))
  | none => false

/-- SELF_RELAX_EXPIRY (R58, R67): 20 ms after a known EXCITE time the station is RECOVERING until 22 ms after it, and a scan whose
SAMPLE has not begun ends failed. -/
def execSelfRelaxExpiry (c : Code) (s : State) : Result :=
  match (s.dev.record c).excitation.knownTime with
  | some t =>
    if s.dev.passed t 20 then
      s.event (fun d =>
        let relaxed := d.setExcitation c (.recovering (t + 22))
        if d.sampleNotBegun c then relaxed.scanFailed c else relaxed)
    else .next s
  | none => .next s

/-- EXCITED_UNKNOWN_EXPIRY (R58): 20 ms after the exchange that left the EXCITE time unknown, RECOVERING until 22 ms after it. -/
def execExcitedUnknownExpiry (c : Code) (s : State) : Result :=
  match (s.dev.record c).excitation with
  | .excited (.unknown t) =>
    if s.dev.passed t 20 then s.event (fun d => d.setExcitation c (.recovering (t + 22))) else .next s
  | _ => .next s

/-- RECOVERY_END (R58): the recovery end is reached, and the state becomes RELAXED. -/
def execRecoveryEnd (c : Code) (s : State) : Result :=
  match (s.dev.record c).excitation with
  | .recovering ends =>
    if ends ≤ s.dev.time.now then s.event (fun d => d.setExcitation c .relaxed) else .next s
  | _ => .next s

/-- DUE_TIME_REACHED (R62): the station becomes due. Being due is a condition on the due time and the instant
(`Device.isDue`), so the event stores nothing; from it on the arbiter finds the station due (R70). -/
def execDueTimeReached (_c : Code) (s : State) : Result := .next s

/-- BUDGET_ENTRY_AGED (R59): the oldest entry reaches 20 ms. What the budget allows is a condition on the history and the
instant (`Device.budgetAllows`), so the event stores nothing; from it on the arbiter and a held retry find it allowed (R70). -/
def execBudgetEntryAged (s : State) : Result := .next s

/-- AGE_TICK (R72, R149, R150): the next time-base instant; every listed place's age and running stage timer count. -/
def execAgeTick (s : State) : Result :=
  s.event (fun d => { d with time := { now := d.time.now + 1, past := false }, places := d.places.map (Place.tick d.env) })

/-- A place that stops being fresh (R73, R100): NODE_SILENT when 401 ms have passed since it joined, row 1 of the table, the
verdict, the stage. -/
def Place.loseFreshness (e : Env) (p : Place) : Place :=
  let stale := ({ p with fresh := false }).setFault .nodeSilent (decide (p.joinStamp + 401 ≤ e.now))
  ((stale.rowOneEvaluation e).evalVerdict e).remind e p e

/-- FRESHNESS_LOSS (R73): the age of a fresh place has reached 401 ms. -/
def execFreshnessLoss (n : Nat) (s : State) : Result :=
  match s.dev.places[n]? with
  | some p =>
    if p.fresh = true ∧ 401 ≤ p.age then s.event (fun d => d.modifyPlace n (Place.loseFreshness d.env)) else .next s
  | none => .next s

/-- NODE_SILENT_AFTER_JOIN (R73): 401 ms after joining a place that is not fresh raises NODE_SILENT. -/
def execNodeSilentAfterJoin (n : Nat) (s : State) : Result :=
  match s.dev.places[n]? with
  | some p =>
    if p.fresh = false ∧ s.dev.passed p.joinStamp 401 = true then
      s.event (fun d => d.modifyPlace n (fun p => p.setFault .nodeSilent true))
    else .next s
  | none => .next s

/-! ## The station table -/

/-- The start-up probe of a station has not yet been made (R39). -/
def Device.startupAhead (d : Device) (c : Code) : Bool := d.st.startup.any (fun k => decide (k.val < c.val))

/-- The station codes in ascending order counting on from the station chosen last, wrapping from 12 to 1 (R23). -/
def codesFrom (last : Option Code) : List Code :=
  match last with
  | none => List.finRange 12
  | some k => (List.finRange 12).drop (k.val + 1) ++ (List.finRange 12).take (k.val + 1)

/-- The station a probe mark picks: the first that is ABSENT or FAULTED and whose start-up probe has been made (R23, R39). -/
def Device.probePick (d : Device) : Option Code :=
  (codesFrom d.st.lastProbe).find? (fun c =>
    ((d.station c).state == .absent || (d.station c).state == .faulted) && !d.startupAhead c)

/-- The probe chosen at the previous mark is still waiting or in flight (R23). -/
def Device.probeOutstanding (d : Device) : Bool :=
  d.st.lastProbe.any (fun c =>
    ((d.station c).state == .probing || (d.station c).state == .faulted) && d.identifyOutstanding c)

/-- A probe mark (R23): the next falls 500 ms on; the station picked is probed. -/
def Device.probeMark (d : Device) (mark : Nat) : Device :=
  let marked := { d with st := { d.st with nextProbe := some (mark + 500) } }
  if d.probeOutstanding then marked
  else match d.probePick with
  | some c => ({ marked with st := { marked.st with lastProbe := some c } }).askProbe c
  | none => marked

/-- PROBE_MARK (R23). -/
def execProbeMark (s : State) : Result :=
  match s.dev.st.nextProbe with
  | some t => if t ≤ s.dev.time.now then s.event (fun d => d.probeMark t) else .next s
  | none => .next s

/-- A re-probe mark of a SILENT station (R34): the next falls 100 ms on; an IDENTIFY is asked for unless the previous one is
outstanding. -/
def Device.reProbeMark (d : Device) (c : Code) (mark : Nat) : Device :=
  let marked := d.setStation c { d.station c with nextReprobe := some (mark + 100) }
  if d.identifyOutstanding c then marked else marked.ask c .identify .st

/-- RE_PROBE_MARK (R34). -/
def execReProbeMark (c : Code) (s : State) : Result :=
  match (s.dev.station c).nextReprobe with
  | some t =>
    if (s.dev.station c).state = .silent ∧ t ≤ s.dev.time.now then s.event (fun d => d.reProbeMark c t) else .next s
  | none => .next s

/-- A re-probe of the station is in flight (R35). -/
def Device.reProbeInFlight (d : Device) (c : Code) : Bool :=
  d.lc.exchange.any (fun x => x.station = c && x.cmd = .identify)

/-- SILENT_EXPIRY (R35): 2 s after SILENT entry the station becomes ABSENT; with a re-probe in flight the expiry waits for its end
(`Device.lateExpiry`). -/
def execSilentExpiry (c : Code) (s : State) : Result :=
  match (s.dev.station c).silentSince with
  | some t =>
    if (s.dev.station c).state = .silent ∧ s.dev.passed t 2000 = true ∧ s.dev.reProbeInFlight c = false then
      s.event (fun d => (d.toAbsent c).rebuild)
    else .next s
  | none => .next s

/-- STARTUP_TIME_LIMIT (R40): 400 ms after reset start-up completes, if it has not yet. -/
def execStartupTimeLimit (s : State) : Result :=
  if s.dev.startupDone = false ∧ 400 ≤ s.dev.time.now then s.event Device.completeStartup else .next s

/-! ## The reminder unit and the drift trim -/

/-- The lapse (R139): the speed unknown, the lapse flag set, the speed-zero instant absent, VEHICLE_LAPSED live, every stage
evaluated (R151). -/
def Device.lapse (d : Device) : Device :=
  let lapsed := { d with vehicle := { d.vehicle with speed := none, lapseStart := none, speedZero := none } }
  (lapsed.mapPlaces (fun p => p.remind d.env p lapsed.env)).setGlobal .vehicleLapsed true

/-- LAPSE_EXPIRY (R139): 500 ms without an accepted VEHICLE_STATE. -/
def execLapseExpiry (s : State) : Result :=
  match s.dev.vehicle.lapseStart with
  | some t => if s.dev.passed t 500 then s.event Device.lapse else .next s
  | none => .next s

/-- LAMP_TIMER_REACHED (R149): a LAMP timer has reached t_lamp, and the place is evaluated. -/
def execLampTimerReached (n : Nat) (s : State) : Result :=
  match s.dev.places[n]? with
  | some p =>
    if p.stage = .lamp ∧ s.dev.params.tLamp * 1000 ≤ p.timer then
      s.event (fun d => d.modifyPlace n (fun p => p.remind d.env p d.env))
    else .next s
  | none => .next s

/-- CHIME_TIMER_REACHED (R150): a CHIME timer has reached t_chime, and the place is evaluated. -/
def execChimeTimerReached (n : Nat) (s : State) : Result :=
  match s.dev.places[n]? with
  | some p =>
    if p.stage = .chime ∧ s.dev.params.tChime * 1000 ≤ p.timer then
      s.event (fun d => d.modifyPlace n (fun p => p.remind d.env p d.env))
    else .next s
  | none => .next s

/-- TRIM_MARK (R134): a trim mark falls, and the next falls 10 s on. -/
def execTrimMark (n : Nat) (s : State) : Result :=
  match s.dev.places[n]? with
  | some p =>
    match p.nextTrim with
    | some t =>
      if t ≤ s.dev.time.now then
        s.event (fun d => d.modifyPlace n (fun p => { p with trimDue := true, nextTrim := some (t + 10000) }))
      else .next s
    | none => .next s
  | none => .next s

end Sys2Proof.Machine
end

