-- ==== Sys2Proof/Machine/Requests.lean ====
section
/-! DEFINITION. The Port Unit and the meanings of the port rows: chip select, bad frames, and the seventeen requests with their
owning rules (R156 to R171, and R37, R50, R55, R112, R118, R124, R138, R176, R177). -/

namespace Sys2Proof.Machine

/-! ## Chip select and frames -/

/-- Change PU's state of one port. -/
def State.setPort (s : State) (p : Port) (u : PortUnit) : State := { s with ports := s.ports.set p u }

/-- CHIP_SELECT_HIGH_AFTER_RESET (R156): from now on PU takes frames on the port. -/
def execChipSelectHighAfterReset (p : Port) (s : State) : Result :=
  .next (s.setPort p { s.ports.get p with highSeen := true })

/-- The response a pending response stands for at the edge that loads it: the first response carries the current generation
(R158). -/
def Device.formResponse (d : Device) : PendingResponse → Response
  | .first => { status := .first, echo := 0, data := d.generation.setWidth 16 }
  | .formed r => r

/-- CHIP_SELECT_FALL (R158, R159): opens a frame and loads the pending response with the attention priority of this moment. Before
chip select has been seen high, or within an open frame, there is no such edge. -/
def execChipSelectFall (p : Port) (s : State) : Result :=
  let u := s.ports.get p
  if u.highSeen = true ∧ u.loaded = none then
    .next (s.setPort p { u with
      loaded := some (responseBytes (s.dev.formResponse u.response) (s.dev.report.get p).priority) })
  else .next s

/-- PU at the end of a frame (R158): the loaded response has been shifted out on the frame's edges, and a new response is pending. -/
def PortUnit.closeFrame (u : PortUnit) (loaded : List Byte) (edges : Nat) (r : Response) : PortUnit :=
  { u with loaded := none, sent := shiftedOut loaded edges, response := .formed r }

/-- Data out of a port (SDOA, SDOB) on a clock edge of the frame, the first being edge 0: the loaded response's bit while a frame is
open, 0 after the 40th edge (R158); high impedance, `none`, while none is open: chip select high, the reset line low (R156, R185), or
chip select still low from before the reset (the model's choice, assumption 35). -/
def PortUnit.dataOut (u : PortUnit) (edge : Nat) : Option Bool :=
  u.loaded.map (fun bytes => (bytesBits bytes).getD edge false)

/-- BAD_FRAME (R157, R168): the pending response becomes FRAME_ERROR, echo 0, data 0; nothing else changes. Bits that make a good frame
are no bad frame. -/
def execBadFrame (p : Port) (bits : List Bool) (s : State) : Result :=
  match (s.ports.get p).loaded with
  | some loaded =>
    if isGoodFrame bits then .next s
    else .next (s.setPort p ((s.ports.get p).closeFrame loaded bits.length { status := .frameError, echo := 0, data := 0 }))
  | none => .next s

/-- What a request's owning rule answers: the status and data, the blocks, and PU's state of the port. -/
structure Reply where
  status : Status
  data   : Word
  dev    : Device
  unit   : PortUnit

/-- PU takes the request of a good frame at its frame event (R158, R160): its rule answers, the response becomes pending with the
request code as echo, RPU acts last (R182). Without an open frame there is no frame event. -/
def State.takeRequest (s : State) (p : Port) (f : Frame) (code : BitVec 6) (rule : Device → PortUnit → Reply) : Result :=
  match (s.ports.get p).loaded with
  | some loaded =>
    let reply := rule (s.dev.atMoment f.moment) (s.ports.get p)
    .next { s with
      dev := reply.dev.finish
      ports := s.ports.set p (reply.unit.closeFrame loaded 40 { status := reply.status, echo := code, data := reply.data }) }
  | none => .next s

/-- A reply that changes nothing. -/
def Reply.only (status : Status) (data : Word) (d : Device) (u : PortUnit) : Reply :=
  { status := status, data := data, dev := d, unit := u }

/-- ILLEGAL_REQUEST (R160): answered ILLEGAL with data 0, no effect. A code that names a request is no illegal request. -/
def execIllegalRequest (p : Port) (code : BitVec 6) (f : Frame) (s : State) : Result :=
  if (requestOfCode code).isNone then s.takeRequest p f code (Reply.only .illegal 0) else .next s

/-! ## Reads -/

/-- READ_NEXT's rule (R167). The next word of the snapshot is as many words from the buffer's end as remain. -/
def readNextRule (d : Device) (u : PortUnit) : Reply :=
  if u.remaining = 0 then Reply.only .noData 0 d u
  else
    { status := .ok, data := u.buffer.getD (u.buffer.length - u.remaining) 0, dev := d
      unit := { u with cursor := u.cursor + 1, remaining := u.remaining - 1 } }

/-- READ_NEXT (R167). -/
def execReadNext (p : Port) (f : Frame) (s : State) : Result := s.takeRequest p f Request.readNext.code readNextRule

/-- STATUS's rule (R161). -/
def statusRule (p : Port) (f : Frame) (d : Device) (u : PortUnit) : Reply :=
  if f.selector.toNat < 8 then Reply.only .ok (d.globalWord p f.selector.toNat) d u else Reply.only .range 0 d u

/-- STATUS (R161). -/
def execStatus (p : Port) (f : Frame) (s : State) : Result := s.takeRequest p f Request.status.code (statusRule p f)

/-- PLACE_STATUS's rule (R162). -/
def placeStatusRule (p : Port) (f : Frame) (d : Device) (u : PortUnit) : Reply :=
  match d.places[f.selector.toNat]? with
  | some place =>
    { status := .ok, data := d.placeWord0 place, unit := u
      dev := d.modifyPlace f.selector.toNat (fun q => q.clearRead p) }
  | none => Reply.only .range 0 d u

/-- PLACE_STATUS (R162). -/
def execPlaceStatus (p : Port) (f : Frame) (s : State) : Result :=
  s.takeRequest p f Request.placeStatus.code (placeStatusRule p f)

/-- Clear at a port the marks of each place whose eight words all lie in a run of table words; the places from number `n` on
(R166). -/
def clearRun (p : Port) (start count : Nat) : Nat → List Place → List Place
  | _, [] => []
  | n, q :: qs =>
    (if start ≤ 8 * n ∧ 8 * n + 8 ≤ start + count then q.clearRead p else q) :: clearRun p start count (n + 1) qs

/-- TABLE_READ's rule (R166). -/
def tableReadRule (p : Port) (f : Frame) (d : Device) (u : PortUnit) : Reply :=
  let start := f.selector.toNat
  let count := f.value.toNat
  if count = 0 ∨ Config.bufferWords < count ∨ Config.tableWords < start + count then Reply.only .range 0 d u
  else
    { status := .ok, data := f.value
      dev := { d with places := clearRun p start count 0 d.places }
      unit := { u with buffer := d.tableRun p start count, cursor := start, remaining := count } }

/-- TABLE_READ (R166). -/
def execTableRead (p : Port) (f : Frame) (s : State) : Result := s.takeRequest p f Request.tableRead.code (tableReadRule p f)

/-- CHANGES's rule (R163): the place numbers with any change kind pending at the port. -/
def changesRule (p : Port) (d : Device) (u : PortUnit) : Reply :=
  Reply.only .ok (numberSet 0 (d.places.map (fun q => q.marks.get p != 0))) d u

/-- CHANGES (R163). -/
def execChanges (p : Port) (f : Frame) (s : State) : Result := s.takeRequest p f Request.changes.code (changesRule p)

/-- REMINDER_SUMMARY's rule (R164). -/
def reminderSummaryRule (f : Frame) (d : Device) (u : PortUnit) : Reply :=
  if f.selector = 0 then Reply.only .ok d.agg.lampMask d u
  else if f.selector = 1 then Reply.only .ok d.agg.word d u
  else Reply.only .range 0 d u

/-- REMINDER_SUMMARY (R164). -/
def execReminderSummary (p : Port) (f : Frame) (s : State) : Result :=
  s.takeRequest p f Request.reminderSummary.code (reminderSummaryRule f)

/-! ## Fault requests -/

/-- The port's report changed, the other port's untouched. -/
def Device.setReport (d : Device) (p : Port) (r : PortReport) : Device := { d with report := d.report.set p r }

/-- FAULTS_READ's rule (R171, R176). -/
def faultsReadRule (p : Port) (f : Frame) (d : Device) (u : PortUnit) : Reply :=
  if f.global then
    { status := .ok, data := (d.report.get p).stickyGlobal.setWidth 16, unit := u
      dev := d.setReport p { d.report.get p with globalMark := false } }
  else
    match d.places[f.selector.toNat]? with
    | some place =>
      { status := .ok, data := (place.sticky.get p).setWidth 16, unit := u
        dev := d.modifyPlace f.selector.toNat (fun q => q.clearFault p) }
    | none => Reply.only .range 0 d u

/-- FAULTS_READ (R176). -/
def execFaultsRead (p : Port) (f : Frame) (s : State) : Result := s.takeRequest p f Request.faultsRead.code (faultsReadRule p f)

/-- A port's sticky set of a place becomes its live set (R177). -/
def Place.clearSticky (p : Port) (q : Place) : Place := { q with sticky := q.sticky.set p q.live }

/-- FAULTS_CLEAR's rule (R171, R177). -/
def faultsClearRule (p : Port) (f : Frame) (d : Device) (u : PortUnit) : Reply :=
  if f.global then
    { status := .ok, data := (d.report.get p).stickyGlobal.setWidth 16, unit := u
      dev := d.setReport p { d.report.get p with globalMark := false, stickyGlobal := d.live } }
  else
    match d.places[f.selector.toNat]? with
    | some place =>
      { status := .ok, data := (place.sticky.get p).setWidth 16, unit := u
        dev := d.modifyPlace f.selector.toNat (fun q => (q.clearSticky p).clearFault p) }
    | none => Reply.only .range 0 d u

/-- FAULTS_CLEAR (R177). -/
def execFaultsClear (p : Port) (f : Frame) (s : State) : Result :=
  s.takeRequest p f Request.faultsClear.code (faultsClearRule p f)

/-! ## Parameters (R169) -/

/-- A row of the parameter table: owner and range. -/
structure ParamRow where
  owner : Port
  low   : Nat
  high  : Nat
  deriving DecidableEq, Repr

/-- The parameter table by id (R169). -/
def paramRow : Nat → Option ParamRow
  | 1 => some { owner := .a, low := 0, high := 2 }
  | 2 => some { owner := .a, low := 1, high := 255 }
  | 3 => some { owner := .a, low := 0, high := 4 }
  | 4 => some { owner := .a, low := 100, high := 20000 }
  | 5 => some { owner := .a, low := 50, high := 19999 }
  | 6 => some { owner := .a, low := 500, high := 40000 }
  | 7 => some { owner := .a, low := 400, high := 39999 }
  | 8 => some { owner := .a, low := 100, high := 5000 }
  | 9 => some { owner := .a, low := 500, high := 20000 }
  | 10 => some { owner := .a, low := 64, high := 256 }
  | 11 => some { owner := .a, low := 1, high := 15 }
  | 12 => some { owner := .a, low := 1, high := 15 }
  | 13 => some { owner := .b, low := 1, high := 255 }
  | 14 => some { owner := .b, low := 1, high := 255 }
  | 15 => some { owner := .b, low := 1, high := 255 }
  | 16 => some { owner := .b, low := 10, high := 255 }
  | _ => none

/-- The value of a scan mode (R169). -/
def ScanMode.value : ScanMode → Nat
  | .fixed1x => 0
  | .fixed2x => 1
  | .auto => 2

/-- The scan mode of a value 0..2 (R169). -/
def scanModeOf (v : Nat) : ScanMode :=
  match v with
  | 0 => .fixed1x
  | 1 => .fixed2x
  | _ => .auto

/-- The value of a parameter by id. -/
def Params.value (q : Params) : Nat → Nat
  | 1 => q.scanMode.value
  | 2 => q.vFast
  | 3 => q.filterShift
  | 4 => q.occOn
  | 5 => q.occOff
  | 6 => q.adultOn
  | 7 => q.adultOff
  | 8 => q.childMin
  | 9 => q.childMax
  | 10 => q.concChild
  | 11 => q.persistAdult
  | 12 => q.persistOther
  | 13 => q.vLamp
  | 14 => q.vChime
  | 15 => q.tLamp
  | 16 => q.tChime
  | _ => 0

/-- The parameters with one written, by id. -/
def Params.write (q : Params) (id v : Nat) : Params :=
  match id with
  | 1 => { q with scanMode := scanModeOf v }
  | 2 => { q with vFast := v }
  | 3 => { q with filterShift := v }
  | 4 => { q with occOn := v }
  | 5 => { q with occOff := v }
  | 6 => { q with adultOn := v }
  | 7 => { q with adultOff := v }
  | 8 => { q with childMin := v }
  | 9 => { q with childMax := v }
  | 10 => { q with concChild := v }
  | 11 => { q with persistAdult := v }
  | 12 => { q with persistOther := v }
  | 13 => { q with vLamp := v }
  | 14 => { q with vChime := v }
  | 15 => { q with tLamp := v }
  | 16 => { q with tChime := v }
  | _ => q

/-- The four consistency conditions of the load thresholds (R102). -/
def Params.loadsConsistent (q : Params) : Bool :=
  decide (q.occOff < q.occOn) && decide (q.adultOff < q.adultOn) && decide (q.occOn < q.adultOff) &&
  decide (q.childMin < q.childMax)

/-- The consistency check of a write by id: that of R102 for occ_on to child_max, that of R142 for v_lamp and v_chime. -/
def Params.consistentFor (q : Params) (id : Nat) : Bool :=
  if 4 ≤ id ∧ id ≤ 9 then q.loadsConsistent
  else if id = 13 ∨ id = 14 then decide (q.vLamp ≤ q.vChime)
  else true

/-- A parameter written: the reminder parameters re-evaluate every place's stage (R142, R151). -/
def Device.writeParam (d : Device) (id v : Nat) : Device :=
  let written := { d with params := d.params.write id v }
  if 13 ≤ id then written.mapPlaces (fun p => p.remind d.env p written.env) else written

/-- SET_PARAM's rule (R169). -/
def setParamRule (p : Port) (f : Frame) (d : Device) (u : PortUnit) : Reply :=
  let id := f.selector.toNat
  let v := f.value.toNat
  let now := BitVec.ofNat 16 (d.params.value id)
  match paramRow id with
  | none => Reply.only .range 0 d u
  | some row =>
    if row.owner ≠ p then Reply.only .notPermitted now d u
    else if d.mode = .frozen then Reply.only .wrongState now d u
    else if v < row.low ∨ row.high < v then Reply.only .range now d u
    else if (d.params.write id v).consistentFor id then
      { status := .ok, data := f.value, dev := d.writeParam id v, unit := u }
    else Reply.only .conflict now d u

/-- SET_PARAM (R169). -/
def execSetParam (p : Port) (f : Frame) (s : State) : Result := s.takeRequest p f Request.setParam.code (setParamRule p f)

/-! ## Policy (R55, R56) -/

/-- The bits of a SET_POLICY value outside the mask and values positions: bits 15..7 and bit 3. -/
def policyReserved (v : Word) : Bool := v &&& 0xFF88 != 0

/-- The mask names a field whose owner is the other port: bits 0 and 1 are port B's, bit 2 port A's (R54). -/
def policyForeign (p : Port) (v : Word) : Bool :=
  match p with
  | .a => v.getLsbD 0 || v.getLsbD 1
  | .b => v.getLsbD 2

/-- A policy with the fields a mask names at their new values (R55). -/
def Policy.written (q : Policy) (v : Word) : Policy where
  reminderEnable := if v.getLsbD 0 then v.getLsbD 4 else q.reminderEnable
  childReminder := if v.getLsbD 1 then v.getLsbD 5 else q.childReminder
  restraintFitted := if v.getLsbD 2 then v.getLsbD 6 else q.restraintFitted

/-- The three policy fields as response data, in mask order. -/
def Policy.word (q : Policy) : Word :=
  0#13 ++ BitVec.ofBool q.restraintFitted ++ BitVec.ofBool q.childReminder ++ BitVec.ofBool q.reminderEnable

/-- A place whose policy is written (R56): a changed restraint_fitted re-evaluates the verdict, a changed reminder field the
stage. -/
def Place.writePolicy (e : Env) (v : Word) (p : Place) : Place :=
  let q := { p with policy := p.policy.written v }
  let judged := if q.policy.restraintFitted = p.policy.restraintFitted then q else q.evalVerdict e
  if q.policy.reminderEnable = p.policy.reminderEnable ∧ q.policy.childReminder = p.policy.childReminder then judged
  else judged.remind e p e

/-- SET_POLICY's rule (R55). -/
def setPolicyRule (p : Port) (f : Frame) (d : Device) (u : PortUnit) : Reply :=
  if policyReserved f.value then Reply.only .range 0 d u
  else if policyForeign p f.value then Reply.only .notPermitted 0 d u
  else
    match d.places[f.selector.toNat]? with
    | none => Reply.only .range 0 d u
    | some place =>
      { status := .ok, data := (place.policy.written f.value).word, unit := u
        dev := d.modifyPlace f.selector.toNat (Place.writePolicy d.env f.value) }

/-- SET_POLICY (R55, R56). -/
def execSetPolicy (p : Port) (f : Frame) (s : State) : Result := s.takeRequest p f Request.setPolicy.code (setPolicyRule p f)

/-! ## Attention enables (R170) -/

/-- SET_ATTN's rule (R170): bits 15..7 are reserved. -/
def setAttnRule (p : Port) (f : Frame) (d : Device) (u : PortUnit) : Reply :=
  if f.value &&& 0xFF80 != 0 then Reply.only .range ((d.report.get p).enable.setWidth 16) d u
  else
    { status := .ok, data := f.value, unit := u
      dev := d.setReport p { d.report.get p with enable := f.value.extractLsb' 0 7 } }

/-- SET_ATTN (R170). -/
def execSetAttn (p : Port) (f : Frame) (s : State) : Result := s.takeRequest p f Request.setAttn.code (setAttnRule p f)

/-! ## The vehicle state (R138 to R141, R144) -/

/-- The vehicle record after an accepted VEHICLE_STATE (R138, R140). -/
def Vehicle.supplied (v : Vehicle) (ignition : Bool) (speed stamp : Nat) : Vehicle where
  ignition := ignition
  speed := some speed
  lapseStart := some stamp
  speedZero := if speed = 0 then (if v.speed = some 0 then v.speedZero else some stamp) else none

/-- The fastened-this-trip flag at a change of the ignition: cleared at the trip end, set at an ignition ON with the buckle LATCHED
(R144). -/
def Place.tripFlag (before after : Bool) (p : Place) : Place :=
  if before && !after then { p with fastened := false }
  else if !before && after && p.beltFastened then { p with fastened := true }
  else p

/-- An accepted VEHICLE_STATE (R138): the record, the lapse cleared, the flags, then every place's stage (R151). -/
def Device.supply (d : Device) (ignition : Bool) (speed : Nat) : Device :=
  let moved := { d with vehicle := d.vehicle.supplied ignition speed d.stamp }
  (moved.mapPlaces (fun p =>
    (p.tripFlag d.vehicle.ignition ignition).remind d.env p moved.env)).setGlobal .vehicleLapsed false

/-- VEHICLE_STATE's rule (R138): bits 14..8 are reserved. -/
def vehicleStateRule (p : Port) (f : Frame) (d : Device) (u : PortUnit) : Reply :=
  if p = .a then Reply.only .notPermitted d.vehicle.word d u
  else if f.value &&& 0x7F00 != 0 then Reply.only .range d.vehicle.word d u
  else
    let after := d.supply (f.value.getLsbD 15) (f.value.extractLsb' 0 8).toNat
    { status := .ok, data := after.vehicle.word, dev := after, unit := u }

/-- VEHICLE_STATE (R138). -/
def execVehicleState (p : Port) (f : Frame) (s : State) : Result :=
  s.takeRequest p f Request.vehicleState.code (vehicleStateRule p f)

/-! ## CAL_ZERO (R124 to R126, R171) -/

/-- The data of a CAL_ZERO response: calibration state and sample count, the count 0 while none runs (R171). -/
def Calibration.word (c : Calibration) : Word :=
  0#5 ++ c.code ++ 0#2 ++ BitVec.ofNat 6 (match c with
    | .running run => run.samples
    | .ended _ => 0)

/-- The data for the place a selector names, 0 when it names none (R171). -/
def Device.calData (d : Device) (n : Nat) : Word :=
  match d.places[n]? with
  | some p => p.cal.word
  | none => 0

/-- The place's calibration condition for an unforced request: reported EMPTY with an initialised F below occ_off (R124). -/
def Place.believedEmpty (q : Params) (p : Place) : Bool :=
  p.reported == .empty && p.filter.any (fun f => decide (f < q.occOff))

/-- How many places have a calibration running. -/
def Device.runningCals (d : Device) : Nat := d.places.countP Place.calRunning

/-- What R124 answers a CAL_ZERO. -/
inductive CalAnswer where
  | refuse (status : Status)
  | merge
  | start
  deriving DecidableEq, Repr

/-- The table of R124, its rows in order. -/
def Device.calAnswer (d : Device) (p : Port) (forced : Bool) (n : Nat) : CalAnswer :=
  if forced = true ∧ p = .b then .refuse .notPermitted
  else if d.mode ≠ .run then .refuse .wrongState
  else
    match d.places[n]? with
    | none => .refuse .range
    | some place =>
      match place.cal with
      | .running run => if run.forced = forced then .merge else .refuse .busy
      | .ended _ =>
        if (d.station place.id.station).state ≠ .active then .refuse .condition
        else if forced = false ∧ place.believedEmpty d.params = false then .refuse .condition
        else if 2 ≤ d.runningCals then .refuse .busy
        else .start

/-- CAL_ZERO's rule (R124). -/
def calZeroRule (p : Port) (f : Frame) (d : Device) (u : PortUnit) : Reply :=
  let n := f.selector.toNat
  match d.calAnswer p f.forced n with
  | .refuse status => Reply.only status (d.calData n) d u
  | .merge => Reply.only .ok (d.calData n) d u
  | .start =>
    let started := d.modifyPlace n (Place.startCal d.env f.forced)
    { status := .ok, data := started.calData n, dev := started, unit := u }

/-- CAL_ZERO (R124). -/
def execCalZero (p : Port) (f : Frame) (s : State) : Result := s.takeRequest p f Request.calZero.code (calZeroRule p f)

/-! ## LINK_TEST (R37, R171) -/

/-- LINK_TEST's rule (R37), the rows of its table in order; an accepted test begins at once when no scan is in progress. -/
def linkTestRule (f : Frame) (d : Device) (u : PortUnit) : Reply :=
  match stationSelector f with
  | none => Reply.only .range 0 d u
  | some c =>
    let s := d.station c
    if d.mode = .frozen then Reply.only .wrongState s.word0 d u
    else if s.state ≠ .active then Reply.only .wrongState s.word0 d u
    else if d.calibrating c then Reply.only .busy s.word0 d u
    else if s.testPending then Reply.only .ok s.word0 d u
    else
      let taken := (d.setStation c { s with testPending := true }).takeUpTest c
      { status := .ok, data := (taken.station c).word0, dev := taken, unit := u }

/-- LINK_TEST (R37). -/
def execLinkTest (p : Port) (f : Frame) (s : State) : Result := s.takeRequest p f Request.linkTest.code (linkTestRule f)

/-! ## ACCEPT_MAP (R50 to R53) -/

/-- The current generation as response data. -/
def Device.generationWord (d : Device) : Word := d.generation.setWidth 16

/-- A place at an accepted map: the verdict re-evaluated where its accepted status changed (R52), MAP at both ports (R50). -/
def Place.acceptedMap (before after : Env) (p : Place) : Place :=
  (if before.accepts p = after.accepts p then p else p.evalVerdict after).mark .map

/-- ACCEPT_MAP carried out (R50). -/
def Device.acceptMap (d : Device) : Device :=
  let taken := { d with accepted := d.places.map Place.id, acceptedGen := d.generation }
  taken.mapPlaces (Place.acceptedMap d.env taken.env)

/-- ACCEPT_MAP's rule (R50), the rows of its table in order. -/
def acceptMapRule (p : Port) (f : Frame) (d : Device) (u : PortUnit) : Reply :=
  if p = .b then Reply.only .notPermitted d.generationWord d u
  else if d.mode ≠ .run then Reply.only .wrongState d.generationWord d u
  else if 255 < f.value.toNat then Reply.only .range d.generationWord d u
  else if f.value ≠ d.generationWord then Reply.only .staleGen d.generationWord d u
  else { status := .ok, data := d.generationWord, dev := d.acceptMap, unit := u }

/-- ACCEPT_MAP (R50). -/
def execAcceptMap (p : Port) (f : Frame) (s : State) : Result := s.takeRequest p f Request.acceptMap.code (acceptMapRule p f)

/-! ## FREEZE and UNFREEZE (R112 to R114, R118, R119) -/

/-- A place at the FREEZE event: class and verdict held, the pending class cleared (R113), a running calibration ended
ABORTED_FROZEN (R129), the stage OFF (R114). `e0` is before, `e` after. -/
def Place.freeze (e0 e : Env) (p : Place) : Place :=
  (p.dropPending.abortCal e .abortedFrozen).remind e0 p e

/-- FREEZE carried out: the mode, the places, and the waiting CAL_STOREs withdrawn (R112 to R114, R129). -/
def Device.freeze (d : Device) : Device :=
  let frozen := { d with mode := .frozen }
  (frozen.mapPlaces (Place.freeze d.env frozen.env)).pruneStores

/-- FREEZE's rule (R112). -/
def freezeRule (p : Port) (d : Device) (u : PortUnit) : Reply :=
  if p = .b then Reply.only .notPermitted d.generationWord d u
  else if d.mode = .frozen then Reply.only .ok d.generationWord d u
  else { status := .ok, data := d.generationWord, dev := d.freeze, unit := u }

/-- FREEZE (R112). -/
def execFreeze (p : Port) (f : Frame) (s : State) : Result := s.takeRequest p f Request.freeze.code (freezeRule p)

/-- A place at the UNFREEZE event (R119): the pending class cleared, the release evaluation, the verdict, the stage. -/
def Place.unfreeze (e0 e : Env) (p : Place) : Place :=
  ((p.dropPending.rowOneEvaluation e).evalVerdict e).remind e0 p e

/-- UNFREEZE carried out (R119). -/
def Device.unfreeze (d : Device) : Device :=
  let run := { d with mode := .run }
  run.mapPlaces (Place.unfreeze d.env run.env)

/-- The vehicle has stood at 0 km/h for 5 s (R118, R140). -/
def Device.standing (d : Device) : Bool :=
  d.vehicle.speed == some 0 && d.vehicle.speedZero.any (fun t => d.passed t 5000)

/-- UNFREEZE's rule (R118), the rows of its table in order. -/
def unfreezeRule (p : Port) (d : Device) (u : PortUnit) : Reply :=
  if p = .b then Reply.only .notPermitted d.generationWord d u
  else if d.mode ≠ .frozen then Reply.only .wrongState d.generationWord d u
  else if d.standing then { status := .ok, data := d.generationWord, dev := d.unfreeze, unit := u }
  else Reply.only .condition d.generationWord d u

/-- UNFREEZE (R118). -/
def execUnfreeze (p : Port) (f : Frame) (s : State) : Result := s.takeRequest p f Request.unfreeze.code (unfreezeRule p)

end Sys2Proof.Machine
end

