-- ==== Sys2Proof/Machine/Dispatch.lean ====
section
/-! DEFINITION. What each command does to everything but the queue: one arm per constructor of Instr, each one call of its meaning. -/

namespace Sys2Proof.Machine

/-- The effect of a command (opcode_table.json, one arm per row). -/
def exec (i : Instr) (s : State) : Host.Outcome State Fault Refusal :=
  match i with
  | .reset => Sys2Proof.Machine.execReset s
  | .linkQuietPassed => Sys2Proof.Machine.execLinkQuietPassed s
  | .arbiterChoice m => Sys2Proof.Machine.execArbiterChoice m s
  | .commandFrameSent m => Sys2Proof.Machine.execCommandFrameSent m s
  | .linkCharacterReceived m ch => Sys2Proof.Machine.execLinkCharacterReceived m ch s
  | .noAnswerTimeout m => Sys2Proof.Machine.execNoAnswerTimeout m s
  | .truncatedTimeout m => Sys2Proof.Machine.execTruncatedTimeout m s
  | .drainQuietTimeout m => Sys2Proof.Machine.execDrainQuietTimeout m s
  | .exciteRetryStart m => Sys2Proof.Machine.execExciteRetryStart m s
  | .settlePassed c => Sys2Proof.Machine.execSettlePassed c s
  | .selfRelaxExpiry c => Sys2Proof.Machine.execSelfRelaxExpiry c s
  | .excitedUnknownExpiry c => Sys2Proof.Machine.execExcitedUnknownExpiry c s
  | .recoveryEnd c => Sys2Proof.Machine.execRecoveryEnd c s
  | .dueTimeReached c => Sys2Proof.Machine.execDueTimeReached c s
  | .budgetEntryAged => Sys2Proof.Machine.execBudgetEntryAged s
  | .ageTick => Sys2Proof.Machine.execAgeTick s
  | .freshnessLoss n => Sys2Proof.Machine.execFreshnessLoss n s
  | .nodeSilentAfterJoin n => Sys2Proof.Machine.execNodeSilentAfterJoin n s
  | .probeMark => Sys2Proof.Machine.execProbeMark s
  | .reProbeMark c => Sys2Proof.Machine.execReProbeMark c s
  | .silentExpiry c => Sys2Proof.Machine.execSilentExpiry c s
  | .startupTimeLimit => Sys2Proof.Machine.execStartupTimeLimit s
  | .lapseExpiry => Sys2Proof.Machine.execLapseExpiry s
  | .lampTimerReached n => Sys2Proof.Machine.execLampTimerReached n s
  | .chimeTimerReached n => Sys2Proof.Machine.execChimeTimerReached n s
  | .trimMark n => Sys2Proof.Machine.execTrimMark n s
  | .chipSelectFall p => Sys2Proof.Machine.execChipSelectFall p s
  | .badFrame p bits => Sys2Proof.Machine.execBadFrame p bits s
  | .illegalRequest p code f => Sys2Proof.Machine.execIllegalRequest p code f s
  | .readNext p f => Sys2Proof.Machine.execReadNext p f s
  | .status p f => Sys2Proof.Machine.execStatus p f s
  | .placeStatus p f => Sys2Proof.Machine.execPlaceStatus p f s
  | .tableRead p f => Sys2Proof.Machine.execTableRead p f s
  | .changes p f => Sys2Proof.Machine.execChanges p f s
  | .faultsRead p f => Sys2Proof.Machine.execFaultsRead p f s
  | .faultsClear p f => Sys2Proof.Machine.execFaultsClear p f s
  | .reminderSummary p f => Sys2Proof.Machine.execReminderSummary p f s
  | .setParam p f => Sys2Proof.Machine.execSetParam p f s
  | .setPolicy p f => Sys2Proof.Machine.execSetPolicy p f s
  | .setAttn p f => Sys2Proof.Machine.execSetAttn p f s
  | .vehicleState p f => Sys2Proof.Machine.execVehicleState p f s
  | .calZero p f => Sys2Proof.Machine.execCalZero p f s
  | .linkTest p f => Sys2Proof.Machine.execLinkTest p f s
  | .acceptMap p f => Sys2Proof.Machine.execAcceptMap p f s
  | .freeze p f => Sys2Proof.Machine.execFreeze p f s
  | .unfreeze p f => Sys2Proof.Machine.execUnfreeze p f s
  | .chipSelectHighAfterReset p => Sys2Proof.Machine.execChipSelectHighAfterReset p s

end Sys2Proof.Machine
end

