-- ==== Sys2Proof/Machine/Node.lean ====
section
/-! DEFINITION. The node as the part sees it (R13 to R20): what a conforming partner holds, does and answers. A node is no part of
the machine, so nothing here is in State; what a node sends reaches the machine as LINK_CHARACTER_RECEIVED. -/

namespace Sys2Proof.Machine

/-- The excitation condition of a node (R13), with the instant in ms at which it was excited or relaxed. -/
inductive NodeCondition where
  | relaxed
  | excited (since : Nat)
  | recovering (since : Nat)
  deriving DecidableEq, Repr

/-- The stored calibration of one place of a node: 12 zeros and 12 gains (R13). -/
structure NodeCalibration where
  zeros : Vector Word 12
  gains : Vector Word 12
  deriving DecidableEq, Repr

/-- A node (R13). `station` is the code of the connector it is latched into, `reads` the code its connector reading gives (R14);
its place count is the length of `calibration`. -/
structure Node where
  condition   : NodeCondition
  autoRelax   : Bool
  pattern     : Bool
  boot        : Bool
  calibration : List NodeCalibration
  serial      : Serial
  station     : Byte
  reads       : Byte
  deriving DecidableEq, Repr

/-- A node restarts: RELAXED, pattern mode off, the boot flag set, the calibration kept (R13). That the auto-relax flag is kept too is the
model's choice (assumption 38). -/
def Node.restart (n : Node) : Node := { n with condition := .relaxed, pattern := false, boot := true }

/-- A node at an instant: the self-relax 20 ms after an EXCITE (R16), and the end of the recovery 2 ms after a relax (R18). -/
def Node.atInstant (n : Node) (now : Nat) : Node :=
  match n.condition with
  | .relaxed => n
  | .excited since =>
    if since + 22 ≤ now then { n with condition := .relaxed }
    else if since + 20 ≤ now then { n with condition := .recovering (since + 20) } else n
  | .recovering since => if since + 2 ≤ now then { n with condition := .relaxed } else n

/-- The node's mats are energised. -/
def Node.isExcited (n : Node) : Bool :=
  match n.condition with
  | .excited _ => true
  | .relaxed | .recovering _ => false

/-- The settle time has passed, so that the readings are valid: 3 ms after the EXCITE was taken (R16). -/
def Node.settled (n : Node) (now : Nat) : Bool :=
  match n.condition with
  | .excited since => decide (since + 3 ≤ now)
  | .relaxed | .recovering _ => false

/-- The code of a result in the status byte (R184). -/
def LinkResult.code : LinkResult → BitVec 2
  | .ack => 1
  | .refused => 2
  | .notExcited => 3

/-- The status byte of an answer: the flags as the node stands when it begins the answer (R20, R184). That the node sends 0 in bits 7, 3
and 2, which the part ignores, is the model's choice (assumption 36). -/
def Node.statusByte (n : Node) (r : LinkResult) : Byte :=
  0#1 ++ BitVec.ofBool n.pattern ++ BitVec.ofBool n.isExcited ++ BitVec.ofBool n.boot ++ 0#2 ++ r.code

/-- An answer frame: status, length, payload and check byte (R4). -/
def answerFrame (status : Byte) (payload : List Byte) : List Byte :=
  let head := status :: BitVec.ofNat 8 payload.length :: payload
  head ++ [-(byteSum head)]

/-- The node mode byte (R184). That the node sends 0 in bits 7..2, which the part ignores, is the model's choice (assumption 36). -/
def Node.modeByte (n : Node) : Byte := 0#6 ++ BitVec.ofBool n.pattern ++ BitVec.ofBool n.isExcited

/-- The payload of an IDENTIFY answer (R4, R14). -/
def Node.identity (n : Node) : List Byte :=
  [n.serial.extractLsb' 24 8, n.serial.extractLsb' 16 8, n.serial.extractLsb' 8 8, n.serial.extractLsb' 0 8,
   n.reads, BitVec.ofNat 8 n.calibration.length, n.modeByte]

/-- The readings of one place as they travel: 12 cell words and the inputs byte (R17). -/
def Readings.bytes (r : Readings) : List Byte := r.words.toList.flatMap wordBytes ++ [r.inputs]

/-- A refusal: no change, length 0. -/
def Node.refuse (n : Node) (r : LinkResult) : Node × List Byte := (n, answerFrame (n.statusByte r) [])

/-- An acknowledgement by the node as it stands after the command, with a payload. -/
def Node.acknowledge (n : Node) (payload : List Byte) : Node × List Byte := (n, answerFrame (n.statusByte .ack) payload)

/-! ## Commands as a node reads them (R2, R13) -/

/-- A command as it reaches a node, with the operands its payload can carry: a place index of any value (R15), and the auto-relax
flag (R16). -/
inductive NodeCommand where
  | identify
  | calRead (place : Byte)
  | calStore (place : Byte) (zeros : Vector Word 12)
  | excite (autoRelax : Bool)
  | sample
  | relax
  | patternOn
  | patternOff
  deriving DecidableEq, Repr

/-- A command of the part as the node reads it; the part sets the auto-relax flag in every EXCITE (R3). -/
def LinkCommand.atNode : LinkCommand → NodeCommand
  | .identify => .identify
  | .calRead seat => .calRead (BitVec.ofNat 8 seat.val)
  | .calStore seat zeros => .calStore (BitVec.ofNat 8 seat.val) zeros
  | .excite => .excite true
  | .sample => .sample
  | .relax => .relax
  | .patternOn => .patternOn
  | .patternOff => .patternOff

/-- The command that a command byte and a payload spell (R3, R184): none for a command byte the node does not know (R13), and none
for a payload of another length than the command's. -/
def nodeCommandOf (command : Byte) (payload : List Byte) : Option NodeCommand :=
  match command.toNat, payload with
  | 0x31, [] => some .identify
  | 0x32, [place] => some (.calRead place)
  | 0x33, place :: zeros => if zeros.length = 24 then some (.calStore place (payloadCells zeros 0)) else none
  | 0x34, [flag] => some (.excite (flag == 1))
  | 0x35, [] => some .sample
  | 0x36, [] => some .relax
  | 0x37, [] => some .patternOn
  | 0x38, [] => some .patternOff
  | _, _ => none

/-- The command that the characters after an address character spell (R3, R13): none when the length byte disagrees with their
number, when the check byte fails, or when the command is not known. -/
def readCommand (address : Byte) (chars : List Byte) : Option NodeCommand :=
  match chars with
  | command :: len :: tail =>
    if tail.length = len.toNat + 1 ∧ byteSum (address :: chars) = 0 then nodeCommandOf command tail.dropLast else none
  | _ => none

/-! ## What a node does with a command (R14 to R20) -/

/-- What a node does with a command and what it answers. `now` is the instant at which it takes the command, `mats` the current
readings of its places. A SAMPLE leaves it EXCITED: it relaxes when it has sent the answer (`Node.answerSent`).
That the answer begins at the instant at which the command is taken, with no turnaround, is the model's choice (assumption 37). -/
def Node.take (n : Node) (now : Nat) (mats : List Readings) (cmd : NodeCommand) : Node × List Byte :=
  match cmd with
  | .identify => ({ n with boot := false }, answerFrame (n.statusByte .ack) n.identity)
  | .calRead place =>
    match n.calibration[place.toNat]? with
    | some v => n.acknowledge (v.zeros.toList.flatMap wordBytes ++ v.gains.toList.flatMap wordBytes)
    | none => n.refuse .refused
  | .calStore place zeros =>
    if n.isExcited = true ∨ n.calibration.length ≤ place.toNat then n.refuse .refused
    else ({ n with calibration := n.calibration.modify place.toNat (fun v => { v with zeros := zeros }) }).acknowledge []
  | .excite autoRelax =>
    if n.condition = .relaxed ∧ n.pattern = false then
      ({ n with condition := .excited now, autoRelax := autoRelax }).acknowledge []
    else n.refuse .refused
  | .sample =>
    if n.pattern = true ∨ n.isExcited = true then
      n.acknowledge (if n.pattern then patternPayload n.calibration.length else mats.flatMap Readings.bytes)
    else n.refuse .notExcited
  | .relax =>
    if n.isExcited then ({ n with condition := .recovering now }).acknowledge [] else n.acknowledge []
  | .patternOn =>
    if n.isExcited then n.refuse .refused else ({ n with pattern := true }).acknowledge []
  | .patternOff => ({ n with pattern := false }).acknowledge []

/-- The end of the answer to a command, at the instant at which the node has finished sending it (R17): after a SAMPLE a node that is
EXCITED with the auto-relax flag set relaxes now, and its recovery counts from now (R18). -/
def Node.answerSent (n : Node) (now : Nat) (cmd : NodeCommand) : Node :=
  let m := n.atInstant now
  if cmd = .sample ∧ m.isExcited = true ∧ m.autoRelax = true then { m with condition := .recovering now } else m

/-- A node hears the characters of a command frame with their mark bits (R2, R13). Selected by its own station code, it takes the
characters with mark 0 that follow, up to the next address character, and answers the command they spell; a command that it drops,
and one for another node, it does not answer and does not act on. -/
def Node.hear (n : Node) (now : Nat) (mats : List Readings) (chars : List (Bool × Byte)) : Node × Option (List Byte) :=
  let m := n.atInstant now
  match chars with
  | (true, address) :: rest =>
    if address = n.station then
      match readCommand address ((rest.takeWhile (fun ch => !ch.1)).map Prod.snd) with
      | some cmd => ((m.take now mats cmd).1, some (m.take now mats cmd).2)
      | none => (m, none)
    else (m, none)
  | _ => (m, none)

/-! ## The answer at LC -/

/-- What LC makes of an answer whose characters all arrive in form: `none` while it is incomplete (R4, R5). -/
def receive (cmd : LinkCommand) (count : Option Nat) : List Byte → List Byte → Option RxResult
  | _, [] => none
  | taken, b :: rest =>
    match checkAnswer cmd count (taken ++ [b]) true with
    | .more => receive cmd count (taken ++ [b]) rest
    | outcome => some outcome

end Sys2Proof.Machine
end

