-- ==== Sys2Proof/Safety.lean ====
section
/-! DEFINITION. The laws of the device: what holds in every state a run reaches, each law stated for the blocks that keep it, and the
words in which the obligations speak of a port's answer. Every definition here is decidable on a concrete state. -/

/-- The port that is not this one. -/
def Sys2Proof.Port.other : Sys2Proof.Port → Sys2Proof.Port
  | .a => .b
  | .b => .a

/-- The port at which a command is an event, if it is an event of a port. -/
def Sys2Proof.Instr.port : Sys2Proof.Instr → Option Sys2Proof.Port
  | .chipSelectFall p | .badFrame p _ | .illegalRequest p _ _ | .readNext p _ | .status p _ | .placeStatus p _
  | .tableRead p _ | .changes p _ | .faultsRead p _ | .faultsClear p _ | .reminderSummary p _ | .setParam p _
  | .setPolicy p _ | .setAttn p _ | .vehicleState p _ | .calZero p _ | .linkTest p _ | .acceptMap p _ | .freeze p _
  | .unfreeze p _ | .chipSelectHighAfterReset p => some p
  | _ => none

namespace Sys2Proof.Machine

/-! ## Ports -/

/-- The law of a transfer (R167): at most 64 words remain, the cursor and the remaining count sum to at most 184, and the buffer
holds every word that remains. -/
abbrev PortUnit.transferLaw (u : PortUnit) : Prop :=
  u.remaining ≤ Config.bufferWords ∧ u.cursor + u.remaining ≤ Config.tableWords ∧
  u.buffer.length ≤ Config.bufferWords ∧ u.remaining ≤ u.buffer.length

/-- The law of both transfers. -/
abbrev State.transferLaw (s : State) : Prop := s.ports.a.transferLaw ∧ s.ports.b.transferLaw

/-- The transfer of a port stands as it stood (R168). -/
abbrev State.transferKept (s t : State) (p : Port) : Prop :=
  (t.ports.get p).buffer = (s.ports.get p).buffer ∧ (t.ports.get p).cursor = (s.ports.get p).cursor ∧
  (t.ports.get p).remaining = (s.ports.get p).remaining

/-- From `s` to `t` port `p` has taken a frame and answered it (R158): the frame is closed, the response pending; the other port's
unit and the commands that wait are untouched. -/
abbrev State.answered (s t : State) (p : Port) (r : Response) : Prop :=
  (t.ports.get p).response = .formed r ∧ (t.ports.get p).loaded = none ∧
  (t.ports.get p).highSeen = (s.ports.get p).highSeen ∧
  t.ports.get p.other = s.ports.get p.other ∧ t.pending = s.pending

/-! ## Attention, aggregates, period -/

/-- What is recomputed at every event stands for the state (R61, R153, R181, R182). -/
abbrev Device.publishedLaw (d : Device) : Prop :=
  d.agg = d.aggregates ∧ d.ss.period = d.periodOf ∧
  (d.report.a.priority = d.priorityOf .a ∧ (d.report.a.lineLow = true ↔ d.report.a.priority ≠ 0)) ∧
  (d.report.b.priority = d.priorityOf .b ∧ (d.report.b.lineLow = true ↔ d.report.b.priority ≠ 0))

/-- Nothing changed: every stored part of the blocks is as it was, and so, in a state in which the recomputed values stand for the
state, are those. The time base is at the same instant. -/
abbrev Device.kept (d e : Device) : Prop :=
  e.time.now = d.time.now ∧ e.mode = d.mode ∧ e.startupDone = d.startupDone ∧ e.lc = d.lc ∧ e.st = d.st ∧
  e.ss = { d.ss with period := e.ss.period } ∧ e.places = d.places ∧ e.generation = d.generation ∧ e.accepted = d.accepted ∧
  e.acceptedGen = d.acceptedGen ∧ e.params = d.params ∧ e.vehicle = d.vehicle ∧ e.live = d.live ∧
  (∀ port : Port, (e.report.get port).stickyGlobal = (d.report.get port).stickyGlobal ∧
    (e.report.get port).globalMark = (d.report.get port).globalMark ∧
    (e.report.get port).enable = (d.report.get port).enable) ∧
  (d.publishedLaw → e.agg = d.agg ∧ e.ss.period = d.ss.period ∧ e.report = d.report)

/-- Nothing of the blocks changed at a request. -/
abbrev State.blocksKept (s t : State) : Prop := s.dev.kept t.dev

/-! ## Faults -/

/-- A sticky set contains a live set. -/
abbrev covers {n : Nat} (sticky live : BitVec n) : Prop := live &&& sticky = live

/-- The law of the sticky sets (R174). -/
abbrev Device.stickyLaw (d : Device) : Prop :=
  (∀ p ∈ d.places, covers p.sticky.a p.live ∧ covers p.sticky.b p.live) ∧
  covers d.report.a.stickyGlobal d.live ∧ covers d.report.b.stickyGlobal d.live

/-- The law of the failure run (R12): at most three entries; LINK_FAULT is live when three different stations stand in it, and
only while three entries do. -/
abbrev Device.failureRunLaw (d : Device) : Prop :=
  d.lc.failureRun.length ≤ 3 ∧
  (threeDifferent d.lc.failureRun = true → d.live.getLsbD GlobalFault.linkFault.bit = true) ∧
  (d.live.getLsbD GlobalFault.linkFault.bit = true → d.lc.failureRun.length = 3)

/-- The law of the vehicle record (R137, R139, R140): VEHICLE_LAPSED is live exactly while the lapse flag is set, the speed is
unknown then, and a speed-zero instant stands only beside speed 0. -/
abbrev Device.vehicleLaw (d : Device) : Prop :=
  (d.live.getLsbD GlobalFault.vehicleLapsed.bit = true ↔ d.vehicle.lapsed = true) ∧
  (d.vehicle.lapsed = true → d.vehicle.speed = none) ∧
  (d.vehicle.speedZero.isSome = true → d.vehicle.speed = some 0)

/-! ## Stations and the place list -/

/-- The position of an identity in the order of the place list (R42). -/
def Identity.key (i : Identity) : Nat := 3 * i.station.val + i.seat.val

/-- The law of the place list (R42): at most 16 places, in strictly ascending order of station code and seat index; and the
accepted map holds at most 16 identities (R49). -/
abbrev Device.listLaw (d : Device) : Prop :=
  d.places.length ≤ Config.maxPlaces ∧ d.places.Pairwise (fun p q => p.id.key < q.id.key) ∧
  d.accepted.length ≤ Config.maxPlaces

/-- The law of one station and its scan record (R21, R22, R31, R57, R68): which fields each state carries. -/
abbrev Device.stationLaw (d : Device) (c : Code) : Prop :=
  (d.station c).failures ≤ 3 ∧
  ((d.station c).state = .absent → d.station c = Station.absent) ∧
  ((d.station c).state = .probing → d.station c = { Station.absent with state := .probing }) ∧
  ((d.station c).state = .silent →
    (d.station c).failures = 3 ∧ (d.station c).silentSince.isSome = true ∧ (d.station c).nextReprobe.isSome = true) ∧
  ((d.station c).retained = true → (d.station c).state = .loading ∨ (d.station c).state = .testing) ∧
  ((d.station c).restarted = true → (d.station c).state = .loading ∨ (d.station c).state = .testing) ∧
  ((d.station c).testPending = true → (d.station c).state = .active) ∧
  ((d.station c).test.isSome = true ↔ (d.station c).state = .testing) ∧
  ((d.record c).due.isSome = true ↔ (d.station c).state = .active) ∧
  ((d.record c).scan.isSome = true → (d.station c).state = .active)

/-- The law of every station. -/
abbrev Device.stationsLaw (d : Device) : Prop := ∀ c : Code, d.stationLaw c

/-- The place list is the one the station table gives (R43), and the two global faults that follow the station table stand for it
(R38, R44). -/
abbrev Device.mapLaw (d : Device) : Prop :=
  d.stationsLaw ∧ d.places.map Place.id = d.newList ∧
  (d.live.getLsbD GlobalFault.mapOverflow.bit = true ↔ d.leftOut d.newList = true) ∧
  (d.live.getLsbD GlobalFault.badStation.bit = true ↔ ∃ c : Code, (d.station c).state = .faulted)

/-! ## Places -/

/-- The ranges of the load fields (R83, R84, R87, R93) and of the age (R72). -/
abbrev Place.loadLaw (p : Place) : Prop :=
  p.total.all (fun t => decide (t ≤ 65534)) = true ∧ p.filter.all (fun f => decide (f ≤ 65534)) = true ∧
  p.conc ≤ 256 ∧ p.partialCount ≤ 3 ∧ p.age ≤ 65535

/-- Every working zero lies within 64 codes of its reference zero (R121). -/
abbrev Place.trimLaw (p : Place) : Prop := ∀ i : Cell, -64 ≤ p.trims[i] ∧ p.trims[i] ≤ 64

/-- The law of one calibration record (R123, R130): at most 32 samples, each sum within what they can hold, and the new zeros
present exactly from the 32nd sample on. -/
abbrev CalRun.law (r : CalRun) : Prop :=
  r.samples ≤ 32 ∧ (∀ i : Cell, r.sums[i] ≤ r.samples * 4095) ∧ (r.newZeros.isSome = true ↔ r.samples = 32)

/-- The running record of a calibration, when one runs. -/
def Calibration.record : Calibration → Option CalRun
  | .running r => some r
  | .ended _ => none

/-- The law of the calibrations (R123, R124): at most two run at once, each within its record's ranges. -/
abbrev Device.calLaw (d : Device) : Prop :=
  d.runningCals ≤ 2 ∧ ∀ p ∈ d.places, ∀ r ∈ p.cal.record, r.law

/-- Outside FROZEN every verdict is the one R108 gives; with it ENABLE only where all its conditions hold. -/
abbrev Device.verdictLaw (d : Device) : Prop :=
  d.mode ≠ .frozen → ∀ p ∈ d.places, p.verdict = d.env.verdictOf p

/-- The law of the reminder stage (R143, R147): a place in a stage other than OFF is eligible and not fastened, and the timer is 0
in OFF, WATCH and LAPSED. -/
abbrev Device.reminderLaw (d : Device) : Prop :=
  ∀ p ∈ d.places, (p.stage ≠ .off → d.env.eligible p = true ∧ p.beltFastened = false) ∧
    ((p.stage = .off ∨ p.stage = .watch ∨ p.stage = .lapsed) → p.timer = 0)

/-! ## Parameters -/

/-- The law of the parameters (R102, R142, R169): each within its range, the sets consistent. -/
abbrev Params.law (q : Params) : Prop :=
  q.loadsConsistent = true ∧ q.vLamp ≤ q.vChime ∧
  ∀ i : Fin 16, (paramRow (i.val + 1)).any (fun row =>
    decide (row.low ≤ q.value (i.val + 1)) && decide (q.value (i.val + 1) ≤ row.high)) = true

/-! ## The excitation budget -/

/-- The law of the excitation history (R59): at most 4 stamps, oldest first, none after the present moment. -/
abbrev Device.historyLaw (d : Device) : Prop :=
  d.ss.history.length ≤ 4 ∧ d.ss.history.Pairwise (· ≤ ·) ∧ ∀ t ∈ d.ss.history, t ≤ d.stamp

/-- No EXCITE waits in class 3 (R69): a scan's EXCITE is begun by class 4, which enters its send stamp. -/
abbrev Device.waitingLaw (d : Device) : Prop := ∀ r ∈ d.ss.waiting, r.cmd ≠ .excite

/-! ## The answers of the request tables -/

/-- What an exchange record holds right after the arbiter has handed LC a request (R7). -/
abbrev Exchange.startedFor (x : Exchange) (c : Code) (cmd : LinkCommand) (b : Block) : Prop :=
  x.station = c ∧ x.cmd = cmd ∧ x.block = b ∧ x.firstFailure = none ∧ x.phase = some .sending ∧ x.rx = []

/-- The commands by which the attempt of an exchange ends failed, each with its moment and the failure kind it gives: the three
timeouts in their phases, and the character that fails the check at the check byte (R4, R5). -/
def Device.failureOf (d : Device) (x : Exchange) : Instr → Option (Moment × FailKind)
  | .noAnswerTimeout m => if x.phase = some .awaiting then some (m, .noAnswer) else none
  | .truncatedTimeout m => if x.phase = some .receiving then some (m, .truncated) else none
  | .drainQuietTimeout m => if x.phase = some .draining then some (m, .badCheck) else none
  | .linkCharacterReceived m ch =>
    if (x.phase = some .awaiting ∨ x.phase = some .receiving) ∧
        checkAnswer x.cmd (d.station x.station).count (x.rx ++ [ch.data]) (charWellFormed ch) = .bad
    then some (m, .badCheck) else none
  | _ => none

/-! ## The end of an exchange and what the requesting block makes of it -/

/-- The outcome with which a command ends the exchange on the link, with its moment: the accepted answer as LC reports it, its boot
flag as R10 sets it, or the failure of attempt 2 (R8, R11). -/
def Device.endOf (d : Device) (x : Exchange) (i : Instr) : Option (Moment × LinkOutcome) :=
  match d.failureOf x i with
  | some (m, k) => if x.firstFailure = none then none else some (m, .failed k)
  | none =>
    match i with
    | .linkCharacterReceived m ch =>
      if x.phase = some .awaiting ∨ x.phase = some .receiving then
        match checkAnswer x.cmd (d.station x.station).count (x.rx ++ [ch.data]) (charWellFormed ch) with
        | .accepted a => some (m, x.report a)
        | .more | .drain | .bad => none
      else none
    | _ => none

/-- ST asks for an exchange of the station, behind every request that waits (R69). -/
abbrev Device.askedLast (d : Device) (c : Code) (cmd : LinkCommand) : Prop :=
  d.ss.waiting.getLast? = some { station := c, cmd := cmd, block := .st }

/-- The station is ABSENT: its record as at reset, no request of it waiting, no place of it listed (R21, R24, R28, R36). -/
abbrev Device.goneAbsent (d : Device) (c : Code) : Prop :=
  d.station c = Station.absent ∧ (∀ r ∈ d.ss.waiting, r.station ≠ c) ∧ ∀ q ∈ d.places, q.id.station ≠ c

/-- The station is FAULTED: BAD_STATION live, no place of it listed (R22, R30, R38). -/
abbrev Device.goneFaulted (d : Device) (c : Code) : Prop :=
  (d.station c).state = .faulted ∧ (d.station c).retained = false ∧ d.live.getLsbD GlobalFault.badStation.bit = true ∧
  ∀ q ∈ d.places, q.id.station ≠ c

/-- The station is ACTIVE, due at a stamp; NODE_RESTART is live on no place of it (R30, R32, R34, R62). -/
abbrev Device.goneActive (d : Device) (c : Code) (stamp : Nat) : Prop :=
  (d.station c).state = .active ∧ (d.station c).failures = 0 ∧ (d.station c).retained = false ∧
  (d.record c).due = some stamp ∧ ∀ q ∈ d.places, q.id.station = c → q.hasFault .nodeRestart = false

/-- The station enters LOADING with every load status NOT_READ and asks for a first exchange (R26). -/
abbrev Device.loadsFrom (d : Device) (c : Code) (retained : Bool) (first : LinkCommand) : Prop :=
  (d.station c).state = .loading ∧ (d.station c).retained = retained ∧ (d.station c).load = Vector.replicate 3 none ∧
  d.askedLast c first

/-- A node restart has been taken: LOADING from a confirming IDENTIFY, NODE_RESTART live on a retained station's places (R32, R33). -/
abbrev Device.restarted (d : Device) (c : Code) (retained : Bool) : Prop :=
  d.loadsFrom c retained .identify ∧
  (retained = true → ∀ q ∈ d.places, q.id.station = c → q.hasFault .nodeRestart = true)

/-- The place index whose CAL_READ comes next: the lowest of the place count whose load status is NOT_READ (R26). -/
abbrev Station.readsNext (s : Station) (seat : Seat) : Prop :=
  seat.val < s.count.getD 0 ∧ s.load[seat] = none ∧ ∀ k : Seat, k < seat → s.load[k] ≠ none

/-- Another station that is ACTIVE, LOADING or TESTING has the serial (R25, check 3). -/
abbrev Device.serialHeldBy (d : Device) (c : Code) (serial : Serial) (k : Code) : Prop :=
  k ≠ c ∧ (d.station k).serial = some serial ∧
  ((d.station k).state = .active ∨ (d.station k).state = .loading ∨ (d.station k).state = .testing)

/-- Checks 2 to 4 of R25 from `d` to `e`, on an identity answer with a good station code and place count: its serial and count are
recorded, every other SILENT station with the serial is ABSENT; the station is FAULTED where the serial is held, and else LOADING, not
retained, from a PATTERN_OFF where the answer carried the pattern flag and else from the first CAL_READ (R26). -/
abbrev Device.seatChecked (d e : Device) (c : Code) (a : Answer) : Prop :=
  (e.station c).serial = some (identitySerial a.payload) ∧ (e.station c).count = some (identityCount a.payload) ∧
  (∀ q ∈ e.places, q.id.station ≠ c) ∧
  (∀ k : Code, k ≠ c → (d.station k).state = .silent → (d.station k).serial = some (identitySerial a.payload) → e.goneAbsent k) ∧
  (∀ k : Code, d.serialHeldBy c (identitySerial a.payload) k →
    e.goneFaulted c ∧ (e.station k).state = (d.station k).state ∧ (e.station k).serial = (d.station k).serial) ∧
  ((∀ k : Code, ¬ d.serialHeldBy c (identitySerial a.payload) k) →
    e.loadsFrom c false (if a.pattern then .patternOff else .calRead 0) ∧ (e.station c).failures = 0)

/-- A scan has ended failed from `d` to `e` (R31, R34, R37, R62): the failure count goes up; at 3 the station is SILENT, its re-probe
marks begin 100 ms on, a pending LINK_TEST is dropped, its calibrations have ended ABORTED_NODE (R128); below 3 a pending LINK_TEST
begins when no calibration runs on a place of it. -/
abbrev Device.scanFailedTo (d e : Device) (c : Code) (stamp : Nat) : Prop :=
  (e.record c).scan = none ∧
  (2 ≤ (d.station c).failures →
    (e.station c).state = .silent ∧ (e.station c).failures = 3 ∧ (e.station c).silentSince = some stamp ∧
    (e.station c).nextReprobe = some (stamp + 100) ∧ (e.station c).testPending = false ∧ (e.record c).due = none ∧
    ∀ q ∈ e.places, q.id.station = c → q.calRunning = false) ∧
  ((d.station c).failures < 2 → (e.station c).failures = (d.station c).failures + 1 ∧
    (if (d.station c).state = .active ∧ (d.station c).testPending = true ∧ ∀ p ∈ d.places, p.id.station = c → p.calRunning = false then
      (e.station c).state = .testing ∧ (e.station c).retained = true ∧ (e.station c).testPending = false ∧
      (e.record c).due = none ∧ e.askedLast c .patternOn
    else
      (e.station c).state = (d.station c).state ∧ (e.station c).testPending = (d.station c).testPending ∧
      (e.record c).due = (d.record c).due))

/-! ## The belt reminder -/

/-- A listed place is eligible (R145, its table's rows in order). -/
abbrev Device.needsBelt (d : Device) (p : Place) : Prop :=
  d.mode = .run ∧ d.vehicle.ignition = true ∧ p.policy.reminderEnable = true ∧
  (p.reported = .small ∨ p.reported = .adult ∨ (p.reported = .childBelted ∧ p.policy.childReminder = true) ∨
    (p.reported = .unknown ∧ p.stage ≠ .off))

/-- The stage and timer after an evaluation that finds the place so (R146 to R150). -/
def Device.stageAfter (d : Device) (p : Place) : Stage × Nat :=
  if p.buckle = .latched ∨ ¬ d.needsBelt p then (.off, 0)
  else
    match d.vehicle.speed with
    | none => (p.stage, p.timer)
    | some v =>
      if p.reported = .unknown then (p.stage, p.timer)
      else match p.stage with
      | .off =>
        if p.fastened = true ∧ d.params.vChime ≤ v then (.chime, 0)
        else if d.params.vLamp ≤ v then (.lamp, 0)
        else (.watch, 0)
      | .watch => if d.params.vLamp ≤ v then (.lamp, 0) else (.watch, p.timer)
      | .lamp => if d.params.tLamp * 1000 ≤ p.timer ∧ d.params.vChime ≤ v then (.chime, 0) else (.lamp, p.timer)
      | .chime => if d.params.tChime * 1000 ≤ p.timer then (.lapsed, 0) else (.chime, p.timer)
      | .lapsed => (.lapsed, p.timer)

/-- An event has changed the stage of a place, or whether it is counted in the unfastened count (R153, R154). -/
abbrev Device.reminderMoved (d e : Device) (p q : Place) : Prop :=
  q.stage ≠ p.stage ∨ ¬ ((e.needsBelt q ∧ q.buckle ≠ .latched) ↔ (d.needsBelt p ∧ p.buckle ≠ .latched))

/-- From `p` in `d` to `q` in `e` RU has evaluated the place once (R151): the stage and timer follow from those before the event and
everything else of the place after it; REMINDER is set at both ports exactly when the event moved the reminder (R154). -/
abbrev Device.evaluated (d e : Device) (p q : Place) : Prop :=
  (q.stage, q.timer) = e.stageAfter { q with stage := p.stage, timer := p.timer } ∧
  ∀ port : Port, q.marked port .reminder = (p.marked port .reminder || decide (d.reminderMoved e p q))

/-- The rows of the decision table (R103, R104) over a place as a pass leaves it, `before` the class reported before the pass. -/
def decisionTable (params : Params) (q : Place) (before : Class) : Class :=
  if q.total = none ∨ q.fresh = false ∨ q.hasFault .anchorPartial = true ∨ q.hasFault .anchorFault = true then .unknown
  else if q.leftAnchor = .latched ∧ q.rightAnchor = .latched then .childAnchored
  else if params.concChild ≤ q.conc ∧ (∃ f ∈ q.filter, params.childMin ≤ f ∧ f ≤ params.childMax) ∧ q.buckle = .latched then .childBelted
  else if ∃ f ∈ q.filter, (if before = .adult then params.adultOff else params.adultOn) ≤ f then .adult
  else if (∃ f ∈ q.filter, (if before = .empty then params.occOn else params.occOff) ≤ f) ∨ q.atLeast = true then .small
  else .empty

/-- How a place stands after the end of its CAL_STORE (R131, R132, R133, R136). -/
abbrev Place.storedAs (q : Place) (zeros : Vector Word 12) (acked : Bool) : Prop :=
  q.cal = .ended (if acked then .done else .storeFail) ∧ q.refZeros = zeros ∧ q.trims = Vector.replicate 12 0 ∧
  q.hasFault .driftLimit = false ∧ (q.hasFault .calStoreFail = !acked) ∧ q.marked .a .cal = true ∧ q.marked .b .cal = true

/-- SET_PARAM's table (R169), its rows in order, with the parameter's value after the request as data, and 0 for an unknown id. -/
def setParamAnswer (d : Device) (p : Port) (id v : Nat) : Status :=
  match paramRow id with
  | none => .range
  | some row =>
    if row.owner ≠ p then .notPermitted
    else if d.mode = .frozen then .wrongState
    else if v < row.low ∨ row.high < v then .range
    else if (4 ≤ id ∧ id ≤ 9 ∧ (d.params.write id v).loadsConsistent = false) ∨
        ((id = 13 ∨ id = 14) ∧ (d.params.write id v).vChime < (d.params.write id v).vLamp) then .conflict
    else .ok

/-- SET_POLICY's table (R55), its rows in order. -/
def setPolicyAnswer (d : Device) (p : Port) (f : Frame) : Status :=
  if f.value.getLsbD 3 ∨ f.value.extractLsb' 7 9 ≠ 0 then .range
  else if (match p with
    | .a => f.value.getLsbD 0 || f.value.getLsbD 1
    | .b => f.value.getLsbD 2) = true then .notPermitted
  else if d.places.length ≤ f.selector.toNat then .range
  else .ok

/-- CAL_ZERO's table (R124), its rows in order. -/
def calZeroAnswer (d : Device) (p : Port) (f : Frame) : Status :=
  if f.forced = true ∧ p = .b then .notPermitted
  else if d.mode ≠ .run then .wrongState
  else match d.places[f.selector.toNat]? with
  | none => .range
  | some q =>
    match q.cal with
    | .running run => if run.forced = f.forced then .ok else .busy
    | .ended _ =>
      if (d.station q.id.station).state ≠ .active then .condition
      else if f.forced = false ∧ ¬ (q.reported = .empty ∧ ∃ load ∈ q.filter, load < d.params.occOff) then .condition
      else if 2 ≤ d.places.countP Place.calRunning then .busy
      else .ok

/-- LINK_TEST's table (R37), its rows in order. -/
def linkTestAnswer (d : Device) (f : Frame) : Status :=
  if h : 1 ≤ f.selector.toNat ∧ f.selector.toNat ≤ 12 then
    let c : Code := ⟨f.selector.toNat - 1, by omega⟩
    if d.mode = .frozen then .wrongState
    else if (d.station c).state ≠ .active then .wrongState
    else if ∃ q ∈ d.places, q.id.station = c ∧ q.calRunning = true then .busy
    else .ok
  else .range

/-- ACCEPT_MAP's table (R50), its rows in order. -/
def acceptMapAnswer (d : Device) (p : Port) (f : Frame) : Status :=
  if p = .b then .notPermitted
  else if d.mode = .startUp ∨ d.mode = .frozen then .wrongState
  else if 255 < f.value.toNat then .range
  else if f.value.toNat ≠ d.generation.toNat then .staleGen
  else .ok

/-- UNFREEZE's table (R118), its rows in order. -/
def unfreezeAnswer (d : Device) (p : Port) : Status :=
  if p = .b then .notPermitted
  else if d.mode ≠ .frozen then .wrongState
  else if d.vehicle.speed = some 0 ∧ ∃ since ∈ d.vehicle.speedZero, since + 5000 ≤ d.time.now then .ok
  else .condition

end Sys2Proof.Machine
end

