-- ==== Sys2Proof/Certificates/Slice0/Obligations.lean ====
section
/-! DEFINITION. The statements for the provers. A statement about a command gives, under hypotheses on the state and the operands
alone, the next state that the rules give. -/

open Sys2Proof Sys2Proof.Machine

/-! ## The queue, reset, the shape of every step -/

/-- A step is the front command run on the state with the queue's rest; with no command waiting the block idles (the model's choice,
assumption 3). -/
def Obligations.StepRunsTheFrontCommand : Prop :=
  (∀ (c : Instr) (s : State), step { s with pending := c :: s.pending } = exec c s) ∧
  (∀ s : State, s.pending = [] → step s = .next s)

/-- RESET puts every block in its reset state, with the values the spec gives (R6, R12, R21, R39, R42, R47, R49, R57, R59, R61, R137,
R153, R158, R168, R169, R173 to R175, R181), the seat-link driver and the attention lines released and each data out in high impedance
(R185). -/
def Obligations.ResetPutsEveryBlockInItsResetState : Prop :=
  ∀ s : State, ∃ t : State, exec .reset s = .next t ∧ t.pending = s.pending ∧
    t.dev.mode = .startUp ∧ t.dev.startupDone = false ∧
    t.dev.lc.quietSeen = false ∧ t.dev.lc.exchange = none ∧ t.dev.lc.failureRun = [] ∧
    (t.dev.station 0).state = .probing ∧ (∀ c : Code, c ≠ 0 → (t.dev.station c).state = .absent) ∧
    (∀ c : Code, (t.dev.station c).failures = 0 ∧ (t.dev.station c).retained = false ∧ (t.dev.station c).serial = none ∧
      (t.dev.station c).count = none ∧ (t.dev.station c).silentSince = none) ∧
    t.dev.ss.waiting = [{ station := 0, cmd := .identify, block := .st }] ∧
    (∀ c : Code, (t.dev.record c).excitation = .relaxed ∧ (t.dev.record c).due = none ∧ (t.dev.record c).scan = none) ∧
    t.dev.ss.history = [] ∧ t.dev.ss.period = 60 ∧
    t.dev.places = [] ∧ t.dev.generation = 0 ∧ t.dev.accepted = [] ∧ t.dev.acceptedGen = 0 ∧ t.dev.params = Params.reset ∧
    t.dev.vehicle.ignition = false ∧ t.dev.vehicle.speed = none ∧ t.dev.vehicle.lapsed = false ∧
    t.dev.vehicle.speedZero = none ∧
    t.dev.agg = { lampMask := 0, chime := false, unfastened := 0 } ∧ t.dev.live = 0 ∧
    (t.dev.report.get .a).enable = 0b1111111 ∧ (t.dev.report.get .b).enable = 0b1111101 ∧
    ∀ p : Port, (t.dev.report.get p).stickyGlobal = 0 ∧ (t.dev.report.get p).globalMark = false ∧
      (t.dev.report.get p).priority = 0 ∧ (t.dev.report.get p).lineLow = false ∧
      (t.ports.get p).highSeen = false ∧ (t.ports.get p).response = .first ∧ (t.ports.get p).buffer = [] ∧
      (t.ports.get p).cursor = 0 ∧ (t.ports.get p).remaining = 0 ∧ t.dev.lc.driving = false ∧
      ∀ edge : Nat, (t.ports.get p).dataOut edge = none

/-- No command stops the machine: every command answers a next state, with the commands that wait left waiting. That a command whose
event cannot occur answers one too, with the blocks as they were, is the model's choice (assumption 1). The ports
share nothing inside PU: a command that is no event of a port leaves that port's unit as it is. -/
def Obligations.EveryCommandAnswersAndOtherEventsLeaveThePortUnit : Prop :=
  (∀ (c : Instr) (s : State), ∃ t : State, exec c s = .next t ∧ t.pending = s.pending) ∧
  (∀ (c : Instr) (s t : State) (p : Port), exec c s = .next t → c ≠ .reset → c.port ≠ some p → t.ports.get p = s.ports.get p)

/-! ## The seat link -/

/-- ARBITER_CHOICE starts the exchange of the request chosen: attempt 1 in phase SENDING; the request leaves the queue of class 3;
the EXCITE of a new scan begins the scan, moves the due time on by the period in use and is entered in the history (R7, R59, R62,
R63, R69). Places, stations, ports and the failure run stay. -/
def Obligations.ArbiterChoiceStartsTheChosenExchange : Prop :=
  ∀ (m : Moment) (s : State) (choice : Choice), s.dev.linkFree = true → (s.dev.atMoment m).choose = some choice →
    ∃ (t : State) (x : Exchange), exec (.arbiterChoice m) s = .next t ∧ t.dev.lc.exchange = some x ∧
      t.ports = s.ports ∧ t.dev.places = s.dev.places ∧ t.dev.st = s.dev.st ∧ t.dev.lc.failureRun = s.dev.lc.failureRun ∧
      match choice with
      | .step c cmd =>
        x.startedFor c cmd .ss ∧ t.dev.ss.waiting = s.dev.ss.waiting ∧ t.dev.ss.records = s.dev.ss.records ∧
        t.dev.ss.history = s.dev.ss.history
      | .waiting r =>
        x.startedFor r.station r.cmd r.block ∧ t.dev.ss.waiting = s.dev.ss.waiting.erase r ∧
        t.dev.ss.records = s.dev.ss.records ∧ t.dev.ss.history = s.dev.ss.history
      | .scan c =>
        x.startedFor c .excite .ss ∧ t.dev.ss.waiting = s.dev.ss.waiting ∧
        (t.dev.record c).due = some ((s.dev.atMoment m).stamp + s.dev.ss.period) ∧
        (t.dev.record c).scan =
          some { start := (s.dev.atMoment m).stamp, order := s.dev.ss.nextOrder, step := .exciting } ∧
        (t.dev.record c).excitation = (s.dev.record c).excitation ∧
        (∀ k : Code, k ≠ c → t.dev.record k = s.dev.record k) ∧
        t.dev.ss.history = pushStamp s.dev.ss.history (s.dev.atMoment m).stamp

/-- The arbiter's order (R69): class 2 by the order of the scans' first EXCITE attempts; else the first eligible request of class 3;
else the due station with the earliest due time, the lowest code among equals; nothing only when nothing is eligible. -/
def Obligations.TheArbiterTakesTheFirstRequestOfTheFirstClass : Prop :=
  ∀ d : Device,
    match d.choose with
    | some (.step c cmd) =>
      d.scanCommand c = some cmd ∧ ∀ k : Code, (d.scanCommand k).isSome = true → d.scanOrder c ≤ d.scanOrder k
    | some (.waiting r) =>
      (∀ k : Code, d.scanCommand k = none) ∧ d.requestEligible r = true ∧
      ∃ before after : List LinkRequest, d.ss.waiting = before ++ r :: after ∧
        ∀ q ∈ before, d.requestEligible q = false
    | some (.scan c) =>
      (∀ k : Code, d.scanCommand k = none) ∧ (∀ q ∈ d.ss.waiting, d.requestEligible q = false) ∧
      d.scanEligible c = true ∧
      ∀ k : Code, d.scanEligible k = true → d.dueKey c < d.dueKey k ∨ (d.dueKey c = d.dueKey k ∧ c ≤ k)
    | none =>
      (∀ k : Code, d.scanCommand k = none) ∧ (∀ q ∈ d.ss.waiting, d.requestEligible q = false) ∧
      ∀ k : Code, d.scanEligible k = false

/-- LINK_QUIET_PASSED lets LC start its first exchange; before it the arbiter hands LC nothing (R6; that an
event whose condition does not hold leaves the state is assumption 1).
COMMAND_FRAME_SENT begins the answer wait: phase AWAITING, the driver released, the stamp of the frame's end taken (R1, R7, R58);
with no frame on the line it is no event
(assumption 1). -/
def Obligations.TheLinkWaitsForTheQuietAndForTheFrameEnd : Prop :=
  (∀ s : State, s.dev.lc.quietSeen = false →
     (∀ m : Moment, exec (.arbiterChoice m) s = .next s) ∧
     exec .linkQuietPassed s = .next { s with
       dev := ({ s.dev with lc := { s.dev.lc with quietSeen := true } }).finish }) ∧
  (∀ (m : Moment) (s : State) (x : Exchange), s.dev.lc.exchange = some x →
     (x.phase = some .sending →
       exec (.commandFrameSent m) s = .next { s with dev := ({ s.dev.atMoment m with
         lc := { s.dev.lc with
           exchange := some { x with phase := some .awaiting, frameEnd := (s.dev.atMoment m).stamp } } }).finish } ∧
       s.dev.lc.driving = true) ∧
     (x.phase ≠ some .sending → exec (.commandFrameSent m) s = .next s ∧ s.dev.lc.driving = false))

/-- An answer character before the check byte is taken, or turns the attempt to DRAINING when a check fails; a character received
while LC is idle, drives the line, drains, or holds a retry is discarded (R4, R6, R7; the last of these assumption 10). -/
def Obligations.AnswerCharactersAreTakenOrDiscarded : Prop :=
  ∀ (m : Moment) (ch : RxChar) (s : State),
    (s.dev.lc.exchange = none → exec (.linkCharacterReceived m ch) s = .next s) ∧
    ∀ x : Exchange, s.dev.lc.exchange = some x →
      ((x.phase = none ∨ x.phase = some .sending ∨ x.phase = some .draining) →
        exec (.linkCharacterReceived m ch) s = .next s) ∧
      ((x.phase = some .awaiting ∨ x.phase = some .receiving) →
        (checkAnswer x.cmd (s.dev.station x.station).count (x.rx ++ [ch.data]) (charWellFormed ch) = .more →
          exec (.linkCharacterReceived m ch) s = .next { s with dev := ({ s.dev.atMoment m with
            lc := { s.dev.lc with exchange := some { x with phase := some .receiving, rx := x.rx ++ [ch.data] } } }).finish }) ∧
        (checkAnswer x.cmd (s.dev.station x.station).count (x.rx ++ [ch.data]) (charWellFormed ch) = .drain →
          exec (.linkCharacterReceived m ch) s = .next { s with dev := ({ s.dev.atMoment m with
            lc := { s.dev.lc with exchange := some { x with phase := some .draining, rx := x.rx ++ [ch.data] } } }).finish }))

/-- The character that completes an accepted answer ends the exchange: LC idle, the failure run empty, LINK_FAULT cleared (R7, R12),
and the station's excitation state that of R58. LC reports the answer with the number of attempts used (R11), and with the boot flag
set when it answers a retried IDENTIFY whose first attempt ended BAD_CHECK or TRUNCATED (R10): a SILENT station whose re-probe is
answered by its own seat is then loaded again, and with the flag clear and no pattern flag becomes ACTIVE (R34). -/
def Obligations.AnAcceptedAnswerEndsTheExchange : Prop :=
  ∀ (m : Moment) (ch : RxChar) (s : State) (x : Exchange) (a : Answer), s.dev.lc.exchange = some x →
    (x.phase = some .awaiting ∨ x.phase = some .receiving) →
    checkAnswer x.cmd (s.dev.station x.station).count (x.rx ++ [ch.data]) (charWellFormed ch) = .accepted a →
    ∃ (t : State) (boot : Bool), exec (.linkCharacterReceived m ch) s = .next t ∧ t.ports = s.ports ∧
      t.dev.lc.exchange = none ∧ t.dev.lc.failureRun = [] ∧ t.dev.live.getLsbD GlobalFault.linkFault.bit = false ∧
      t.dev.vehicle = s.dev.vehicle ∧ t.dev.params = s.dev.params ∧ t.dev.accepted = s.dev.accepted ∧
      t.dev.ss.history = s.dev.ss.history ∧
      x.report a = .answered { a with boot := boot } (if x.firstFailure = none then 1 else 2) ∧
      (boot = true ↔ a.boot = true ∨
        (x.cmd = .identify ∧ (x.firstFailure = some .badCheck ∨ x.firstFailure = some .truncated))) ∧
      (t.dev.record x.station).excitation =
        excitationAfter (s.dev.record x.station).excitation x.cmd (x.report a) x.frameEnd (s.dev.atMoment m).stamp ∧
      (∀ k : Code, k ≠ x.station → (t.dev.record k).excitation = (s.dev.record k).excitation) ∧
      (x.block = .st → x.cmd = .identify → (s.dev.station x.station).state = .silent → a.result = .ack →
        identityCode a.payload = x.station.val + 1 → 1 ≤ identityCount a.payload → identityCount a.payload ≤ 3 →
        (s.dev.station x.station).serial = some (identitySerial a.payload) →
        (s.dev.station x.station).count = some (identityCount a.payload) →
        (boot = true → (t.dev.station x.station).state = .loading ∧ (t.dev.station x.station).retained = true) ∧
        (boot = false → a.pattern = false → (t.dev.station x.station).state = .active))

/-- The checks of R4. A frame of well-formed characters whose status, length, payload and check byte fit the command is accepted with
its flags and payload, and with another check byte it is refused at that byte. No other answer is accepted: a result that is none or
does not fit the command, a length out of range or not the one that fits, and a node mode byte that disagrees with the status flags
each turn the attempt to DRAINING at their character, whatever follows, and a character that is not well formed is never taken. -/
def Obligations.TheAnswerChecksAcceptExactlyFittingFrames : Prop :=
  (∀ (cmd : LinkCommand) (count : Option Nat) (status check : Byte) (payload : List Byte) (r : LinkResult),
    resultOf status = some r → (r = .notExcited → cmd = .sample) → payload.length ≤ 80 →
    payload.length = (if r = .ack then cmd.answerLength count else 0) →
    (cmd = .identify → ∀ mode : Byte, payload[6]? = some mode →
      mode.getLsbD 0 = status.getLsbD 5 ∧ mode.getLsbD 1 = status.getLsbD 6) →
    receive cmd count [] (status :: BitVec.ofNat 8 payload.length :: payload ++ [check]) =
      some (if byteSum (status :: BitVec.ofNat 8 payload.length :: payload ++ [check]) = 0 then
        .accepted { result := r, boot := status.getLsbD 4, excited := status.getLsbD 5, pattern := status.getLsbD 6,
                    payload := payload }
      else .bad)) ∧
  (∀ (cmd : LinkCommand) (count : Option Nat) (status : Byte) (rest : List Byte),
    (resultOf status = none ∨ (resultOf status = some .notExcited ∧ cmd ≠ .sample)) →
    receive cmd count [] (status :: rest) = some .drain) ∧
  (∀ (cmd : LinkCommand) (count : Option Nat) (status len : Byte) (rest : List Byte) (r : LinkResult),
    resultOf status = some r → (r = .notExcited → cmd = .sample) →
    (80 < len.toNat ∨ len.toNat ≠ (if r = .ack then cmd.answerLength count else 0)) →
    receive cmd count [] (status :: len :: rest) = some .drain) ∧
  (∀ (count : Option Nat) (status mode : Byte) (identity rest : List Byte),
    resultOf status = some .ack → identity.length = 6 →
    (mode.getLsbD 0 ≠ status.getLsbD 5 ∨ mode.getLsbD 1 ≠ status.getLsbD 6) →
    receive .identify count [] (status :: 7 :: identity ++ mode :: rest) = some .drain) ∧
  (∀ (cmd : LinkCommand) (count : Option Nat) (rx : List Byte) (ch : RxChar), (ch.stop = false ∨ ch.mark = true) →
    checkAnswer cmd count (rx ++ [ch.data]) (charWellFormed ch) = .drain ∨
    checkAnswer cmd count (rx ++ [ch.data]) (charWellFormed ch) = .bad)

/-- When attempt 1 of an exchange fails, by NO_ANSWER_TIMEOUT, TRUNCATED_TIMEOUT or DRAIN_QUIET_TIMEOUT in the phase it belongs to or
by a character that fails the check at the check byte, LC keeps the record, records the failure kind and resends at once as attempt 2,
an EXCITE provided that the budget allows it, with its send stamp entered (R8, R9, R59). That an EXCITE which the budget allows is resent
at the event of the failure, as any other command is, is the model's choice (assumption 29): R9 gives the held case alone. -/
def Obligations.AFailedFirstAttemptIsRetriedAtOnce : Prop :=
  ∀ (c : Instr) (m : Moment) (k : FailKind) (s : State) (x : Exchange), s.dev.lc.exchange = some x →
    s.dev.failureOf x c = some (m, k) → x.firstFailure = none →
    (x.cmd ≠ .excite →
      exec c s = .next { s with dev := ({ s.dev.atMoment m with
        lc := { s.dev.lc with exchange := some { x with
          firstFailure := some k, phase := some .sending, frameEnd := (s.dev.atMoment m).stamp, rx := [] } } }).finish }) ∧
    (x.cmd = .excite → s.dev.budgetAllows = true →
      exec c s = .next { s with dev := ({ s.dev.atMoment m with
        lc := { s.dev.lc with exchange := some { x with
          firstFailure := some k, phase := some .sending, frameEnd := (s.dev.atMoment m).stamp, rx := [] } }
        ss := { s.dev.ss with history := pushStamp s.dev.ss.history (s.dev.atMoment m).stamp } }).finish })

/-- When attempt 2 fails, by NO_ANSWER_TIMEOUT, TRUNCATED_TIMEOUT or DRAIN_QUIET_TIMEOUT or by a character that fails the check at the
check byte, the exchange has failed: LC idle, the station appended to the failure run, LINK_FAULT live when three different stations
stand in it and left as it was otherwise (R8, R12). -/
def Obligations.AFailedSecondAttemptEntersTheFailureRun : Prop :=
  ∀ (c : Instr) (m : Moment) (k : FailKind) (s : State) (x : Exchange), s.dev.lc.exchange = some x →
    s.dev.failureOf x c = some (m, k) → x.firstFailure ≠ none →
    ∃ t : State, exec c s = .next t ∧ t.ports = s.ports ∧ t.dev.lc.exchange = none ∧
      t.dev.lc.failureRun = (s.dev.lc.failureRun ++ [x.station]).drop ((s.dev.lc.failureRun ++ [x.station]).length - 3) ∧
      t.dev.live.getLsbD GlobalFault.linkFault.bit =
        (threeDifferent t.dev.lc.failureRun || s.dev.live.getLsbD GlobalFault.linkFault.bit)

/-- The retry of an EXCITE draws on the budget (R9, R59): it is held while the budget does not allow it, and once allowed
EXCITE_RETRY_START sends it and enters its send stamp. The model's choices: the form of a held retry, a record with no phase and no
characters (assumption 11), and that before its instant the retry's start is no event (assumption 1). -/
def Obligations.AnExciteRetryWaitsForTheBudget : Prop :=
  ∀ (s : State) (x : Exchange), s.dev.lc.exchange = some x → x.cmd = .excite →
    (∀ (c : Instr) (m : Moment) (k : FailKind), s.dev.failureOf x c = some (m, k) → x.firstFailure = none →
      s.dev.budgetAllows = false →
      exec c s = .next { s with dev := ({ s.dev.atMoment m with
        lc := { s.dev.lc with exchange := some { x with firstFailure := some k, phase := none, rx := [] } } }).finish }) ∧
    (∀ m : Moment, x.phase = none → s.dev.budgetAllows = false → exec (.exciteRetryStart m) s = .next s) ∧
    (∀ m : Moment, x.phase = none → s.dev.budgetAllows = true →
      exec (.exciteRetryStart m) s = .next { s with dev := ({ s.dev.atMoment m with
        lc := { s.dev.lc with exchange := some { x with
          phase := some .sending, frameEnd := (s.dev.atMoment m).stamp, rx := [] } }
        ss := { s.dev.ss with history := pushStamp s.dev.ss.history (s.dev.atMoment m).stamp } }).finish })

/-! ## What the requesting block makes of an outcome -/

/-- The end of an IDENTIFY that ST asked for. A probe (R23, R24): ABSENT when it failed; FAULTED without serial and count when it was
REFUSED; FAULTED by check 1 of R25, its serial recorded, and its place count when in 1..3 (assumption 14); else checks 2 to 4 of R25, which
end in FAULTED or LOADING. In the start-up sequence the next station is probed first, before the first loading exchange (R39). A
re-probe or a confirming IDENTIFY (R26, R34, R35): without an ACK a LOADING station is ABSENT, a SILENT one stays, but for an expiry that
waited; a bad station code or place count makes it FAULTED; the same seat is ACTIVE again, or loads again retained with NODE_RESTART
for a boot flag and PATTERN_OFF first for a pattern flag, or goes on loading; another seat takes checks 2 to 4 of R25. -/
def Obligations.IdentifyOutcomesFollowTheIdentityChecks : Prop :=
  (∀ (i : Instr) (m : Moment) (o : LinkOutcome) (s : State) (x : Exchange), s.dev.lc.exchange = some x →
    s.dev.endOf x i = some (m, o) → x.block = .st → x.cmd = .identify →
    ((s.dev.station x.station).state = .probing ∨ (s.dev.station x.station).state = .faulted) →
    ∃ t : State, exec i s = .next t ∧ t.ports = s.ports ∧
      (∀ k : FailKind, o = .failed k → t.dev.goneAbsent x.station) ∧
      (∀ (a : Answer) (attempts : Nat), o = .answered a attempts →
        (a.result ≠ .ack →
          t.dev.goneFaulted x.station ∧ (t.dev.station x.station).serial = none ∧ (t.dev.station x.station).count = none) ∧
        (a.result = .ack → (identityCode a.payload ≠ x.station.val + 1 ∨ identityCount a.payload = 0 ∨ 3 < identityCount a.payload) →
          t.dev.goneFaulted x.station ∧ (t.dev.station x.station).serial = some (identitySerial a.payload) ∧
          (1 ≤ identityCount a.payload → identityCount a.payload ≤ 3 →
            (t.dev.station x.station).count = some (identityCount a.payload))) ∧
        (a.result = .ack → identityCode a.payload = x.station.val + 1 → 1 ≤ identityCount a.payload → identityCount a.payload ≤ 3 →
          s.dev.seatChecked t.dev x.station a)) ∧
      (s.dev.st.startup = some x.station → (s.dev.station x.station).state = .probing →
        (x.station.val = 11 → t.dev.st.startup = none) ∧
        ∀ k : Code, k.val = x.station.val + 1 → t.dev.st.startup = some k ∧
          ((s.dev.station k).state = .absent → (t.dev.station k).state = .probing ∧
            ∃ before after : List LinkRequest,
              t.dev.ss.waiting = before ++ { station := k, cmd := .identify, block := .st } :: after ∧
              ∀ r ∈ after, r.station = x.station))) ∧
  (∀ (i : Instr) (m : Moment) (o : LinkOutcome) (s : State) (x : Exchange), s.dev.lc.exchange = some x →
    s.dev.endOf x i = some (m, o) → x.block = .st → x.cmd = .identify →
    ((s.dev.station x.station).state = .silent ∨ (s.dev.station x.station).state = .loading) →
    ∃ t : State, exec i s = .next t ∧ t.ports = s.ports ∧
      ((∀ (a : Answer) (attempts : Nat), o = .answered a attempts → a.result ≠ .ack) →
        ((s.dev.station x.station).state = .loading → t.dev.goneAbsent x.station) ∧
        ((s.dev.station x.station).state = .silent →
          if ∃ since ∈ (s.dev.station x.station).silentSince, since + 2000 ≤ s.dev.time.now then t.dev.goneAbsent x.station
          else (t.dev.station x.station).state = .silent ∧ (t.dev.station x.station).failures = (s.dev.station x.station).failures ∧
            (t.dev.station x.station).silentSince = (s.dev.station x.station).silentSince ∧
            (t.dev.station x.station).serial = (s.dev.station x.station).serial ∧
            (t.dev.station x.station).count = (s.dev.station x.station).count)) ∧
      ∀ (a : Answer) (attempts : Nat), o = .answered a attempts → a.result = .ack →
        ((identityCode a.payload ≠ x.station.val + 1 ∨ identityCount a.payload = 0 ∨ 3 < identityCount a.payload) →
          t.dev.goneFaulted x.station ∧ (t.dev.station x.station).serial = some (identitySerial a.payload)) ∧
        (identityCode a.payload = x.station.val + 1 → 1 ≤ identityCount a.payload → identityCount a.payload ≤ 3 →
          if (s.dev.station x.station).serial = some (identitySerial a.payload) ∧
              (s.dev.station x.station).count = some (identityCount a.payload) then
            ((s.dev.station x.station).state = .silent →
              if a.boot = true then
                t.dev.loadsFrom x.station true (if a.pattern then .patternOff else .calRead 0) ∧
                (t.dev.station x.station).failures = 0 ∧
                ∀ q ∈ t.dev.places, q.id.station = x.station → q.hasFault .nodeRestart = true
              else if a.pattern = true then
                t.dev.loadsFrom x.station true .patternOff ∧ (t.dev.station x.station).failures = 0
              else t.dev.goneActive x.station (s.dev.atMoment m).stamp) ∧
            ((s.dev.station x.station).state = .loading →
              (a.pattern = true → (t.dev.station x.station).state = .loading ∧ t.dev.askedLast x.station .patternOff) ∧
              (a.pattern = false → ∀ seat : Seat, (s.dev.station x.station).readsNext seat →
                (t.dev.station x.station).state = .loading ∧ t.dev.askedLast x.station (.calRead seat)) ∧
              (t.dev.station x.station).retained = (s.dev.station x.station).retained)
          else s.dev.seatChecked t.dev x.station a))

/-- The end of a loading exchange other than the confirming IDENTIFY (R26 to R28, R33): ABSENT when it failed or was REFUSED; a boot flag
loads the station again (looked at before the result: the model's choice, assumption 33); after PATTERN_OFF, and after each CAL_READ,
whose values are taken with the unusable cells of R27, the lowest place index not yet read comes next; when every place is read the values
are handed on, the station is TESTING and asks for PATTERN_ON, and each of its listed places is reloaded: the zeros read, trims 0,
filter uninitialised, CELL_CAL by its unusable cells (R27, R28, R96, R122). -/
def Obligations.LoadingReadsEveryPlaceAndBecomesTesting : Prop :=
  ∀ (i : Instr) (m : Moment) (o : LinkOutcome) (s : State) (x : Exchange), s.dev.mapLaw → s.dev.lc.exchange = some x →
    s.dev.endOf x i = some (m, o) → x.block = .st → x.cmd ≠ .identify → (s.dev.station x.station).state = .loading →
    ∃ t : State, exec i s = .next t ∧ t.ports = s.ports ∧
      (∀ k : FailKind, o = .failed k → t.dev.goneAbsent x.station) ∧
      ∀ (a : Answer) (attempts : Nat), o = .answered a attempts →
        (a.boot = true → t.dev.restarted x.station (s.dev.station x.station).retained) ∧
        (a.boot = false → a.result ≠ .ack → t.dev.goneAbsent x.station) ∧
        (a.boot = false → a.result = .ack → x.cmd = .patternOff → ∀ seat : Seat, (s.dev.station x.station).readsNext seat →
          t.dev.station x.station = s.dev.station x.station ∧ t.dev.askedLast x.station (.calRead seat)) ∧
        ∀ seat : Seat, a.boot = false → a.result = .ack → x.cmd = .calRead seat →
          let values := calValuesOf a.payload
          let read := { s.dev.station x.station with load := (s.dev.station x.station).load.set seat (some values) }
          (∀ cell : Cell, values.zeros[cell] = payloadWord a.payload (2 * cell.val) ∧
            values.gains[cell] = payloadWord a.payload (24 + 2 * cell.val) ∧
            (values.unusable[cell] = true ↔
              values.gains[cell] = 0 ∨ 1023 < values.gains[cell].toNat ∨ 4000 < values.zeros[cell].toNat)) ∧
          (∀ next : Seat, read.readsNext next →
            t.dev.station x.station = read ∧ t.dev.askedLast x.station (.calRead next)) ∧
          ((∀ next : Seat, ¬ read.readsNext next) →
            t.dev.station x.station = { read with state := .testing, values := read.load, test := some (.patternOn false) } ∧
            t.dev.askedLast x.station .patternOn ∧
            ∀ (n : Nat) (p q : Place) (v : CalValues), s.dev.places[n]? = some p → t.dev.places[n]? = some q →
              p.id.station = x.station → read.load[p.id.seat] = some v →
              q = { p with refZeros := v.zeros, trims := Vector.replicate 12 0, filter := none, partialCount := 0
                           live := q.live, sticky := q.sticky, marks := q.marks } ∧
              ∀ k : FaultKind, q.hasFault k = true ↔
                if k = .cellCal then ∃ cell : Cell, v.unusable[cell] = true else p.hasFault k = true)

/-- The end of an exchange of the pattern test (R29, R30, R33, R37). PATTERN_ON answered ACK is followed by the SAMPLE; REFUSED with the
excited flag set, the first time, by a RELAX and one more PATTERN_ON; REFUSED otherwise the station is ABSENT. The SAMPLE is followed by the
PATTERN_OFF; an answer other than the fixed pattern first makes LINK_PATTERN live on each listed place. The PATTERN_OFF after a match
makes the station ACTIVE when answered ACK, ABSENT else; after a mismatch FAULTED, whatever its outcome (with the boot flag set too: the
model's choice, assumption 12). Any other failed exchange makes it ABSENT, and any other boot flag loads it again (looked at before the
result: the model's choice, assumption 33). That a REFUSED RELAX goes on to the PATTERN_ON is the model's reading (assumption 18). -/
def Obligations.ThePatternTestEndsActiveFaultedOrAbsent : Prop :=
  ∀ (i : Instr) (m : Moment) (o : LinkOutcome) (s : State) (x : Exchange) (step : TestStep), s.dev.lc.exchange = some x →
    s.dev.endOf x i = some (m, o) → x.block = .st → (s.dev.station x.station).state = .testing →
    (s.dev.station x.station).test = some step →
    ∃ t : State, exec i s = .next t ∧ t.ports = s.ports ∧
      (step = .patternOff false → t.dev.goneFaulted x.station ∧
        (t.dev.station x.station).serial = (s.dev.station x.station).serial ∧
        (t.dev.station x.station).count = (s.dev.station x.station).count) ∧
      (step ≠ .patternOff false →
        (∀ k : FailKind, o = .failed k → t.dev.goneAbsent x.station) ∧
        ∀ (a : Answer) (attempts : Nat), o = .answered a attempts →
          let goesOn := fun (next : TestStep) (cmd : LinkCommand) =>
            (t.dev.station x.station).state = .testing ∧
            (t.dev.station x.station).retained = (s.dev.station x.station).retained ∧
            (t.dev.station x.station).test = some next ∧ t.dev.askedLast x.station cmd
          let fixed := (List.replicate ((s.dev.station x.station).count.getD 0)
            ((List.replicate 6 [0x0A, 0xAA, 0x05, 0x55]).flatten ++ [0x5A])).flatten
          (a.boot = true → t.dev.restarted x.station (s.dev.station x.station).retained) ∧
          (a.boot = false → ∀ again : Bool, step = .patternOn again →
            (a.result = .ack → goesOn .sample .sample) ∧
            (a.result ≠ .ack → a.excited = true → again = false → goesOn .relax .relax) ∧
            (a.result ≠ .ack → (a.excited = false ∨ again = true) → t.dev.goneAbsent x.station)) ∧
          (a.boot = false → step = .relax → goesOn (.patternOn true) .patternOn) ∧
          (a.boot = false → step = .sample →
            if a.result = .ack ∧ a.pattern = true ∧ a.payload = fixed then goesOn (.patternOff true) .patternOff
            else goesOn (.patternOff false) .patternOff ∧
              ∀ q ∈ t.dev.places, q.id.station = x.station → q.hasFault .linkPattern = true) ∧
          (a.boot = false → step = .patternOff true →
            (a.result = .ack → t.dev.goneActive x.station (s.dev.atMoment m).stamp) ∧
            (a.result ≠ .ack → t.dev.goneAbsent x.station)))

/-- The end of an exchange of a scan, but for the SAMPLE that succeeds (R31, R32, R37, R63 to R65, R68). A boot flag loads the station
again: LOADING, retained, from a confirming IDENTIFY, failure count 0, NODE_RESTART live on its places, no scan and no due time, a pending
LINK_TEST dropped, its calibrations ended. EXCITE answered ACK settles, REFUSED with the excited flag set goes on to a RELAX, REFUSED
without it or failed ends the scan failed. A SAMPLE without readings, or failed, goes on to a RELAX. A RELAX ends the scan failed, whatever
its outcome. -/
def Obligations.ScanExchangesSettleRelaxOrEndTheScan : Prop :=
  ∀ (i : Instr) (m : Moment) (o : LinkOutcome) (s : State) (x : Exchange) (scan : Scan), s.dev.mapLaw → s.dev.lc.exchange = some x →
    s.dev.endOf x i = some (m, o) → x.block = .ss → (s.dev.record x.station).scan = some scan →
    ∃ t : State, exec i s = .next t ∧ t.ports = s.ports ∧
      let goesOn := fun (step : ScanStep) =>
        (t.dev.record x.station).scan = some { scan with step := step } ∧
        (t.dev.record x.station).due = (s.dev.record x.station).due ∧ t.dev.station x.station = s.dev.station x.station
      let fails := s.dev.scanFailedTo t.dev x.station (s.dev.atMoment m).stamp
      (∀ k : FailKind, o = .failed k →
        (x.cmd = .excite → fails) ∧ (x.cmd = .sample → goesOn .relaxing) ∧ (x.cmd = .relax → fails)) ∧
      ∀ (a : Answer) (attempts : Nat), o = .answered a attempts →
        (a.boot = true →
          t.dev.restarted x.station true ∧ (t.dev.station x.station).failures = 0 ∧
          (t.dev.station x.station).testPending = false ∧ (t.dev.record x.station).scan = none ∧
          (t.dev.record x.station).due = none ∧ ∀ q ∈ t.dev.places, q.id.station = x.station → q.calRunning = false) ∧
        (a.boot = false → x.cmd = .excite →
          (a.result = .ack → goesOn .settling) ∧
          (a.result ≠ .ack → a.excited = true → goesOn .relaxing) ∧
          (a.result ≠ .ack → a.excited = false → fails)) ∧
        (a.boot = false → x.cmd = .sample → ¬ (a.result = .ack ∧ a.excited = true ∧ a.pattern = false) → goesOn .relaxing) ∧
        (a.boot = false → x.cmd = .relax → fails)

/-! ## Excitation and scan times -/

/-- SELF_RELAX_EXPIRY: 20 ms after a known EXCITE time the station is RECOVERING until 22 ms after it; a scan whose SAMPLE has not
begun on the link ends failed, the third failure in a row making the station SILENT, and below it a pending LINK_TEST begins (R31, R37,
R58, R67). -/
def Obligations.SelfRelaxEndsAnUnsampledScan : Prop :=
  ∀ (c : Code) (s : State) (time : Nat), (s.dev.record c).excitation = .excited (.known time) → time + 20 ≤ s.dev.time.now →
    (s.dev.sampleNotBegun c = false →
      exec (.selfRelaxExpiry c) s = .next { s with dev := (s.dev.setRecord c { s.dev.record c with
        excitation := .recovering (time + 22) }).finish }) ∧
    (s.dev.sampleNotBegun c = true →
      ∃ t : State, exec (.selfRelaxExpiry c) s = .next t ∧ t.ports = s.ports ∧
        (t.dev.record c).excitation = .recovering (time + 22) ∧ (t.dev.record c).scan = none ∧
        t.dev.lc = s.dev.lc ∧ (∀ k : Code, k ≠ c → t.dev.station k = s.dev.station k ∧ t.dev.record k = s.dev.record k) ∧
        (t.dev.station c).failures = min 3 ((s.dev.station c).failures + 1) ∧
        (2 ≤ (s.dev.station c).failures →
          (t.dev.station c).state = .silent ∧ (t.dev.station c).silentSince = some s.dev.stamp) ∧
        s.dev.scanFailedTo t.dev c s.dev.stamp)

/-- The scheduler's reached instants. SETTLE_PASSED: 3 ms after the EXCITE time a scan in step SETTLING asks for its SAMPLE, and not
before (R64). EXCITED_UNKNOWN_EXPIRY and RECOVERY_END change the excitation state (R58). After DUE_TIME_REACHED
the station is due and after BUDGET_ENTRY_AGED the budget allows an EXCITE (R59, R62): both are read from the stored times, so
these two events store nothing (the model's choice, assumption 31). Before their instants SETTLE_PASSED and RECOVERY_END are no events
(the model's choice, assumption 1). -/
def Obligations.ReachedInstantsChangeWhatTheSchedulerMayDo : Prop :=
  (∀ (c : Code) (s : State) (sc : Scan) (time : Nat), (s.dev.record c).scan = some sc → sc.step = .settling →
     (s.dev.record c).excitation = .excited (.known time) →
     (time + 3 ≤ s.dev.time.now →
       exec (.settlePassed c) s = .next { s with dev := (s.dev.setRecord c { s.dev.record c with
         scan := some { sc with step := .sampling } }).finish }) ∧
     (s.dev.time.now < time + 3 → exec (.settlePassed c) s = .next s)) ∧
  (∀ (c : Code) (s : State),
     (∀ since : Nat, (s.dev.record c).excitation = .excited (.unknown since) → since + 20 ≤ s.dev.time.now →
       exec (.excitedUnknownExpiry c) s = .next { s with dev := (s.dev.setRecord c { s.dev.record c with
         excitation := .recovering (since + 22) }).finish }) ∧
     (∀ ends : Nat, (s.dev.record c).excitation = .recovering ends →
       (ends ≤ s.dev.time.now →
         exec (.recoveryEnd c) s = .next { s with dev := (s.dev.setRecord c { s.dev.record c with
           excitation := .relaxed, relaxedAt := s.dev.stamp }).finish }) ∧
       (s.dev.time.now < ends → exec (.recoveryEnd c) s = .next s))) ∧
  (∀ (c : Code) (s : State),
     exec (.dueTimeReached c) s = .next s ∧ exec .budgetEntryAged s = .next s ∧
     (∀ due : Nat, (s.dev.station c).state = .active → (s.dev.record c).due = some due → due ≤ s.dev.time.now →
       s.dev.isDue c = true) ∧
     (∀ (oldest : Nat) (rest : List Nat), s.dev.ss.history = oldest :: rest → oldest + 20 ≤ s.dev.time.now →
       s.dev.budgetAllows = true))

/-- The excitation budget (R59). Every step keeps the law of the history: at most 4 send stamps, oldest first, none after the present
moment, and that no EXCITE waits in class 3. A command that puts an EXCITE attempt on the line enters its send
stamp, and no other command but RESET changes the history;
with four stamps in it the one entered lies 20 ms or more after the oldest. -/
def Obligations.TheExcitationBudgetIsKept : Prop :=
  (∀ s t : State, s.dev.historyLaw → s.dev.waitingLaw → step s = .next t → t.dev.historyLaw ∧ t.dev.waitingLaw) ∧
  (∀ (c : Instr) (s t : State) (y : Exchange), s.dev.waitingLaw → exec c s = .next t →
    (∀ x : Exchange, s.dev.lc.exchange = some x → x.phase ≠ some .sending) →
    t.dev.lc.exchange = some y → y.phase = some .sending → y.cmd = .excite →
    t.dev.ss.history = pushStamp s.dev.ss.history t.dev.stamp) ∧
  (∀ (c : Instr) (s t : State), exec c s = .next t → c ≠ .reset → t.dev.ss.history ≠ s.dev.ss.history →
    t.dev.ss.history = pushStamp s.dev.ss.history t.dev.stamp ∧
    (∃ y : Exchange, t.dev.lc.exchange = some y ∧ y.phase = some .sending ∧ y.cmd = .excite) ∧
    ∀ oldest ∈ s.dev.ss.history.head?, 4 ≤ s.dev.ss.history.length → oldest + 20 ≤ t.dev.stamp)

/-- FRESHNESS_LOSS: the place is not fresh, NODE_SILENT is live when it joined 401 ms ago or more; in RUN with no calibration running
it is reported UNKNOWN and its verdict is not ENABLE, in FROZEN class and verdict are held, and its stage is evaluated (R73, R100, R108,
R113, R151).
NODE_SILENT_AFTER_JOIN: the fault becomes live; where it was not, it enters the sticky set of both ports and sets FAULT at both;
nothing else changes, of the place or of any block (R73, R174), but that attention follows the marks. -/
def Obligations.StaleAndUnsampledPlacesRaiseNodeSilent : Prop :=
  (∀ (n : Nat) (s : State) (p : Place), s.dev.places[n]? = some p → p.fresh = true → 401 ≤ p.age →
     ∃ (t : State) (q : Place), exec (.freshnessLoss n) s = .next t ∧ t.dev.places = s.dev.places.set n q ∧ t.ports = s.ports ∧
       t.dev.st = s.dev.st ∧ t.dev.lc = s.dev.lc ∧
       q.id = p.id ∧ q.fresh = false ∧ q.age = p.age ∧ q.total = p.total ∧ q.filter = p.filter ∧ q.conc = p.conc ∧
       q.buckle = p.buckle ∧ q.policy = p.policy ∧ q.cal = p.cal ∧ q.refZeros = p.refZeros ∧ q.trims = p.trims ∧
       (p.joinStamp + 401 ≤ s.dev.time.now → q.hasFault .nodeSilent = true) ∧
       (s.dev.mode = .run → p.calRunning = false →
         q.reported = .unknown ∧ q.pendingClass = none ∧ q.count = 0 ∧ q.verdict ≠ .enable ∧
         (p.reported ≠ .unknown → ∀ port : Port, q.marked port .cls = true)) ∧
       (s.dev.mode = .frozen → q.reported = p.reported ∧ q.verdict = p.verdict) ∧ s.dev.evaluated t.dev p q) ∧
  (∀ (n : Nat) (s : State) (p : Place), s.dev.places[n]? = some p → p.fresh = false → p.joinStamp + 401 ≤ s.dev.time.now →
     ∃ q : Place, exec (.nodeSilentAfterJoin n) s = .next { s with dev := ({ s.dev with places := s.dev.places.set n q }).finish } ∧
       q = { p with live := q.live, sticky := q.sticky, marks := q.marks } ∧
       (∀ k : FaultKind, q.hasFault k = (p.hasFault k || decide (k = .nodeSilent))) ∧
       (∀ (port : Port) (k : FaultKind), (q.sticky.get port).getLsbD k.bit =
         ((p.sticky.get port).getLsbD k.bit || (decide (k = .nodeSilent) && !p.hasFault .nodeSilent))) ∧
       (∀ (port : Port) (k : ChangeKind), q.marked port k = (p.marked port k || (decide (k = .fault) && !p.hasFault .nodeSilent))))

/-! ## Station times -/

/-- PROBE_MARK: the next mark falls 500 ms on; with the probe of the previous mark outstanding, or no station to pick, nothing else
changes, and otherwise an IDENTIFY of the station picked is asked for behind every waiting request, an ABSENT one becoming PROBING
and a FAULTED one staying so (R23). RE_PROBE_MARK: the next mark falls 100 ms on, and the SILENT station's IDENTIFY is asked for
unless the previous one is outstanding (R34). That a mark which finds no station to pick leaves the pick point where it was is the
model's choice (assumption 27). -/
def Obligations.ProbeMarksAskForAnIdentify : Prop :=
  (∀ (s : State) (mark : Nat), s.dev.st.nextProbe = some mark → mark ≤ s.dev.time.now →
     ∃ t : State, exec .probeMark s = .next t ∧ t.dev.st.nextProbe = some (mark + 500) ∧ t.ports = s.ports ∧
       t.dev.places = s.dev.places ∧ t.dev.ss.records = s.dev.ss.records ∧ t.dev.lc = s.dev.lc ∧
       (s.dev.probeOutstanding = true ∨ s.dev.probePick = none →
         t.dev.st.stations = s.dev.st.stations ∧ t.dev.ss.waiting = s.dev.ss.waiting ∧
         t.dev.st.lastProbe = s.dev.st.lastProbe) ∧
       ∀ c : Code, s.dev.probeOutstanding = false → s.dev.probePick = some c →
         t.dev.st.lastProbe = some c ∧
         t.dev.ss.waiting = s.dev.ss.waiting ++ [{ station := c, cmd := .identify, block := .st }] ∧
         (∀ k : Code, k ≠ c → t.dev.station k = s.dev.station k) ∧
         ((s.dev.station c).state = .absent → t.dev.station c = { s.dev.station c with state := .probing }) ∧
         ((s.dev.station c).state = .faulted → t.dev.station c = s.dev.station c)) ∧
  (∀ (c : Code) (s : State) (mark : Nat), (s.dev.station c).state = .silent → (s.dev.station c).nextReprobe = some mark →
     mark ≤ s.dev.time.now →
     exec (.reProbeMark c) s = .next { s with dev := ({ s.dev with
       st := { s.dev.st with
         stations := s.dev.st.stations.set c ({ s.dev.station c with nextReprobe := some (mark + 100) } : Station) }
       ss := { s.dev.ss with
         waiting := if s.dev.identifyOutstanding c then s.dev.ss.waiting
           else s.dev.ss.waiting ++ [({ station := c, cmd := .identify, block := .st } : LinkRequest)] } }).finish })

/-- SILENT_EXPIRY: 2 s after SILENT entry the station becomes ABSENT with every field as at reset, its waiting requests are withdrawn
and its places leave the list; with a re-probe in flight the expiry waits (R21, R35, R36; for the
form of the waiting see assumptions 1 and 26). -/
def Obligations.ASilentStationExpires : Prop :=
  ∀ (c : Code) (s : State) (since : Nat), (s.dev.station c).state = .silent → (s.dev.station c).silentSince = some since →
    since + 2000 ≤ s.dev.time.now →
    (s.dev.reProbeInFlight c = true → exec (.silentExpiry c) s = .next s) ∧
    (s.dev.reProbeInFlight c = false →
      ∃ t : State, exec (.silentExpiry c) s = .next t ∧ t.ports = s.ports ∧ t.dev.lc = s.dev.lc ∧
        t.dev.station c = Station.absent ∧ (∀ k : Code, (t.dev.station k).state = if k = c then .absent else (s.dev.station k).state) ∧
        (∀ r ∈ t.dev.ss.waiting, r.station ≠ c ∧ r ∈ s.dev.ss.waiting) ∧
        (∀ p ∈ t.dev.places, p.id.station ≠ c) ∧ t.dev.ss.records = s.dev.ss.records)

/-- STARTUP_TIME_LIMIT: 400 ms after reset start-up completes, START_UP becomes RUN and FROZEN stays, the first probe mark falls 500
ms on, and the change of the mode evaluates every place's verdict and stage (R108, R151); once start-up is done, or
before the limit, it is no event (R23, R40; assumption 1). -/
def Obligations.StartUpCompletesByItsTimeLimit : Prop :=
  ∀ s : State,
    (s.dev.startupDone = false → 400 ≤ s.dev.time.now →
      ∃ t : State, exec .startupTimeLimit s = .next t ∧ t.ports = s.ports ∧ t.dev.startupDone = true ∧
        t.dev.mode = (if s.dev.mode = .startUp then .run else s.dev.mode) ∧
        t.dev.st = { s.dev.st with nextProbe := some (s.dev.stamp + 500) } ∧ t.dev.lc = s.dev.lc ∧
        t.dev.ss.records = s.dev.ss.records ∧ t.dev.generation = s.dev.generation ∧
        t.dev.places.map Place.id = s.dev.places.map Place.id ∧
        ∀ (n : Nat) (p q : Place), s.dev.places[n]? = some p → t.dev.places[n]? = some q →
          (s.dev.mode ≠ .startUp → q = p) ∧
          (s.dev.mode = .startUp →
            q = { p with verdict := q.verdict, stage := q.stage, timer := q.timer, marks := q.marks } ∧
            q.verdict = t.dev.env.verdictOf q ∧ s.dev.evaluated t.dev p q)) ∧
    (s.dev.startupDone = true ∨ s.dev.time.now < 400 → exec .startupTimeLimit s = .next s)

/-! ## Reminder and trim times -/

/-- LAPSE_EXPIRY: 500 ms after the lapse timer's start the speed is unknown and the lapse flag set, the ignition is kept, the
speed-zero instant is absent, VEHICLE_LAPSED is live and, where it was not, in both sticky global sets with both global fault
marks set; every stage is evaluated, so that a hold begins (R139, R140, R146, R151, R174). Before that it is no event (assumption 1). -/
def Obligations.TheLapseMakesTheSpeedUnknown : Prop :=
  ∀ (s : State) (start : Nat), s.dev.vehicle.lapseStart = some start →
    (s.dev.time.now < start + 500 → exec .lapseExpiry s = .next s) ∧
    (start + 500 ≤ s.dev.time.now →
      ∃ t : State, exec .lapseExpiry s = .next t ∧ t.ports = s.ports ∧
        t.dev.vehicle = { ignition := s.dev.vehicle.ignition, speed := none, lapseStart := none, speedZero := none } ∧
        t.dev.vehicle.lapsed = true ∧ t.dev.live.getLsbD GlobalFault.vehicleLapsed.bit = true ∧
        (s.dev.live.getLsbD GlobalFault.vehicleLapsed.bit = false → ∀ port : Port,
          ((t.dev.report.get port).stickyGlobal).getLsbD GlobalFault.vehicleLapsed.bit = true ∧
          (t.dev.report.get port).globalMark = true) ∧
        (∀ port : Port, (t.dev.report.get port).enable = (s.dev.report.get port).enable) ∧
        t.dev.st = s.dev.st ∧ t.dev.lc = s.dev.lc ∧ t.dev.params = s.dev.params ∧ t.dev.mode = s.dev.mode ∧
        ∀ (n : Nat) (p q : Place), s.dev.places[n]? = some p → t.dev.places[n]? = some q →
          q = { p with stage := q.stage, timer := q.timer, marks := q.marks } ∧ s.dev.evaluated t.dev p q)

/-- AGE_TICK: the next time-base instant. Every place's age increases by 1 up to 65535, and a running stage timer counts up to its
limit while the place is not held (R72, R146, R149, R150; assumption 7). That a CHIME timer stops at its limit too, and that a timer
above a lowered limit keeps its value, is the model's choice (assumption 25).
The timers of a place. For an eligible place that is not fastened and not held, LAMP_TIMER_REACHED goes to CHIME with timer 0 at or
above v_chime and stays in LAMP below it, and CHIME_TIMER_REACHED goes to LAPSED with timer 0 (R149, R150). TRIM_MARK allows one
trim step, and the next mark falls 10 s on (R134); before its instant it is no event (assumption 1). -/
def Obligations.AgesAndTimersCountAndActWhenReached : Prop :=
  (∀ s : State, exec .ageTick s = .next { s with dev := ({ s.dev with
     time := { now := s.dev.time.now + 1, past := false }
     places := s.dev.places.map (fun (p : Place) => ({ p with
       age := if p.age < 65535 then p.age + 1 else 65535
       timer := if p.reported ≠ Class.unknown ∧ s.dev.vehicle.speed ≠ none ∧
           ((p.stage = Stage.lamp ∧ p.timer < s.dev.params.tLamp * 1000) ∨
            (p.stage = Stage.chime ∧ p.timer < s.dev.params.tChime * 1000)) then p.timer + 1 else p.timer } : Place)) }).finish }) ∧
  (∀ (n : Nat) (s : State) (p : Place) (v : Nat), s.dev.places[n]? = some p → s.dev.env.eligible p = true →
     p.beltFastened = false → p.reported ≠ .unknown → s.dev.vehicle.speed = some v →
     (p.stage = .lamp → s.dev.params.tLamp * 1000 ≤ p.timer →
       ∃ (t : State) (q : Place), exec (.lampTimerReached n) s = .next t ∧ t.ports = s.ports ∧
         t.dev.places = s.dev.places.set n q ∧ q = { p with stage := q.stage, timer := q.timer, marks := q.marks } ∧
         (s.dev.params.vChime ≤ v → q.stage = .chime ∧ q.timer = 0 ∧ ∀ port : Port, q.marked port .reminder = true) ∧
         (v < s.dev.params.vChime → q = p)) ∧
     (p.stage = .chime → s.dev.params.tChime * 1000 ≤ p.timer →
       ∃ (t : State) (q : Place), exec (.chimeTimerReached n) s = .next t ∧ t.ports = s.ports ∧
         t.dev.places = s.dev.places.set n q ∧ q = { p with stage := q.stage, timer := q.timer, marks := q.marks } ∧
         q.stage = .lapsed ∧ q.timer = 0 ∧ ∀ port : Port, q.marked port .reminder = true)) ∧
  (∀ (n : Nat) (s : State) (p : Place) (mark : Nat), s.dev.places[n]? = some p → p.nextTrim = some mark →
     (mark ≤ s.dev.time.now → exec (.trimMark n) s = .next { s with dev := ({ s.dev with
       places := s.dev.places.set n { p with trimDue := true, nextTrim := some (mark + 10000) } }).finish }) ∧
     (s.dev.time.now < mark → exec (.trimMark n) s = .next s))

/-! ## The ports -/

/-- Chip select (R156, R158, R159): it must be seen high once after reset; then a falling edge opens a frame and loads the pending
response with the attention priority of that moment, the first response with the current generation. Neither changes anything else.
Before chip select has been seen high a falling edge opens no frame (R156, assumption 1). Data out carries the loaded bytes most
significant bit first and 0 after the 40th edge, and is in high impedance with no frame open (for a chip select that stays low through
a reset this is the model's choice, assumption 35). -/
def Obligations.ChipSelectOpensAFrame : Prop :=
  ∀ (p : Port) (s : State),
    exec (.chipSelectHighAfterReset p) s = .next { s with ports := s.ports.set p { s.ports.get p with highSeen := true } } ∧
    ((s.ports.get p).highSeen = false → exec (.chipSelectFall p) s = .next s) ∧
    ((s.ports.get p).highSeen = true → (s.ports.get p).loaded = none →
      exec (.chipSelectFall p) s = .next { s with ports := s.ports.set p { s.ports.get p with
        loaded := some (responseBytes
          (match (s.ports.get p).response with
           | .first => { status := .first, echo := 0, data := s.dev.generation.setWidth 16 }
           | .formed r => r)
          (s.dev.report.get p).priority) } }) ∧
    ∀ u : PortUnit, (u.loaded = none → ∀ edge : Nat, u.dataOut edge = none) ∧
      ∀ bytes : List Byte, u.loaded = some bytes → bytes.length = 5 →
        (∀ (i j : Nat) (b : Byte), bytes[i]? = some b → j < 8 → u.dataOut (8 * i + j) = some (b.getLsbD (7 - j))) ∧
        ∀ edge : Nat, 40 ≤ edge → u.dataOut edge = some false

/-- A bad frame is answered FRAME_ERROR, echo 0, data 0, and changes nothing else: no block, no transfer, not the other port (R157, R168).
A good frame whose code names no request is answered ILLEGAL with data 0 and has no effect (R160). -/
def Obligations.BadFramesAndUnknownRequestsHaveNoEffect : Prop :=
  (∀ (p : Port) (bits : List Bool) (s : State) (loaded : List Byte), (s.ports.get p).loaded = some loaded →
     isGoodFrame bits = false →
     ∃ t : State, exec (.badFrame p bits) s = .next t ∧ t.dev = s.dev ∧
       s.answered t p { status := .frameError, echo := 0, data := 0 } ∧ s.transferKept t p ∧
       (t.ports.get p).sent = shiftedOut loaded bits.length) ∧
  (∀ (p : Port) (code : BitVec 6) (f : Frame) (s : State), (s.ports.get p).loaded.isSome = true → requestOfCode code = none →
     ∃ t : State, exec (.illegalRequest p code f) s = .next t ∧ s.blocksKept t ∧ s.transferKept t p ∧
       s.answered t p { status := .illegal, echo := code, data := 0 })

/-- READ_NEXT answers OK with the buffer word for the cursor, which moves on by one as the remaining count falls by one; with none
remaining it answers NO_DATA and the transfer stays (R167). The word for the cursor is as many words from the buffer's end as remain. -/
def Obligations.ReadNextShiftsTheSnapshotOut : Prop :=
  ∀ (p : Port) (f : Frame) (s : State), (s.ports.get p).loaded.isSome = true →
    ∃ t : State, exec (.readNext p f) s = .next t ∧ s.blocksKept t ∧
      (t.ports.get p).buffer = (s.ports.get p).buffer ∧
      ((s.ports.get p).remaining = 0 →
        s.answered t p { status := .noData, echo := 0x01, data := 0 } ∧ s.transferKept t p) ∧
      (∀ (n : Nat) (before after : List Word) (word : Word), (s.ports.get p).remaining = n + 1 →
        (s.ports.get p).buffer = before ++ word :: after → after.length = n →
        s.answered t p { status := .ok, echo := 0x01, data := word } ∧
        (t.ports.get p).cursor = (s.ports.get p).cursor + 1 ∧ (t.ports.get p).remaining = n)

/-- STATUS answers OK with the word of the global record as the requesting port reads it, for selectors 0 to 7, in every mode; a selector
of 8 or more is refused RANGE with data 0; it clears nothing (R161). The words stand for the state: mode and start-up done, the
two generations, live and sticky faults, vehicle state, lamp mask, chime demand with the unfastened count. -/
def Obligations.StatusReadsTheGlobalRecordOfTheState : Prop :=
  (∀ (p : Port) (f : Frame) (s : State), (s.ports.get p).loaded.isSome = true →
     ∃ t : State, exec (.status p f) s = .next t ∧ s.blocksKept t ∧ s.transferKept t p ∧
       (f.selector.toNat < 8 →
         s.answered t p { status := .ok, echo := 0x02, data := s.dev.globalWord p f.selector.toNat }) ∧
       (8 ≤ f.selector.toNat → s.answered t p { status := .range, echo := 0x02, data := 0 })) ∧
  (∀ (d : Device) (p : Port),
     (d.globalWord p 0).toNat =
       (match d.mode with | .startUp => 0 | .run => 1 | .frozen => 2) + (if d.startupDone then 4 else 0) ∧
     (d.globalWord p 1).toNat = d.generation.toNat ∧ (d.globalWord p 2).toNat = d.acceptedGen.toNat ∧
     (d.globalWord p 3).toNat = d.live.toNat ∧ (d.globalWord p 4).toNat = (d.report.get p).stickyGlobal.toNat ∧
     (d.globalWord p 5).getLsbD 15 = d.vehicle.ignition ∧ (d.globalWord p 5).getLsbD 9 = d.vehicle.lapsed ∧
     (d.globalWord p 5).getLsbD 8 = d.vehicle.speed.isNone ∧
     (d.globalWord p 5).extractLsb' 0 8 = BitVec.ofNat 8 (d.vehicle.speed.getD 0) ∧
     (d.globalWord p 5).extractLsb' 10 5 = 0 ∧
     d.globalWord p 6 = d.agg.lampMask ∧ (d.globalWord p 7).getLsbD 15 = d.agg.chime ∧
     (d.globalWord p 7).extractLsb' 0 15 = BitVec.ofNat 15 (d.agg.unfastened % 32))

/-- PLACE_STATUS answers OK with word 0 of the place and clears at the requesting port alone every change kind of it but FAULT; a
number past the list is refused RANGE with data 0 and clears nothing. The port's attention is re-evaluated at the same event (R162). -/
def Obligations.PlaceStatusReadsAndClearsAtOnePort : Prop :=
  ∀ (p : Port) (f : Frame) (s : State), (s.ports.get p).loaded.isSome = true →
    ∃ t : State, exec (.placeStatus p f) s = .next t ∧ s.transferKept t p ∧
      (t.dev.report.get p).priority = t.dev.priorityOf p ∧
      ((t.dev.report.get p).lineLow = true ↔ (t.dev.report.get p).priority ≠ 0) ∧
      (s.dev.places.length ≤ f.selector.toNat →
        s.answered t p { status := .range, echo := 0x03, data := 0 } ∧ s.blocksKept t) ∧
      ∀ q : Place, s.dev.places[f.selector.toNat]? = some q →
        s.answered t p { status := .ok, echo := 0x03, data := s.dev.placeWord0 q } ∧
        ∃ q' : Place, t.dev.places = s.dev.places.set f.selector.toNat q' ∧ q' = { q with marks := q'.marks } ∧
          q'.marks.get p.other = q.marks.get p.other ∧
          ∀ k : ChangeKind, q'.marked p k = (q.marked p k && decide (k = .fault))

/-- TABLE_READ with a count of 1 to 64 that ends within the 184 words copies the run into the port's buffer, sets cursor and
remaining count and clears at that port every change kind but FAULT of each place that lies wholly in the run; any other is
refused RANGE with data 0 and changes nothing (R166). -/
def Obligations.TableReadTakesASnapshot : Prop :=
  ∀ (p : Port) (f : Frame) (s : State), (s.ports.get p).loaded.isSome = true →
    ∃ t : State, exec (.tableRead p f) s = .next t ∧
      ((f.value.toNat = 0 ∨ 64 < f.value.toNat ∨ 184 < f.selector.toNat + f.value.toNat) →
        s.answered t p { status := .range, echo := 0x04, data := 0 } ∧ s.transferKept t p ∧ s.blocksKept t) ∧
      (1 ≤ f.value.toNat → f.value.toNat ≤ 64 → f.selector.toNat + f.value.toNat ≤ 184 →
        s.answered t p { status := .ok, echo := 0x04, data := f.value } ∧
        (t.ports.get p).buffer.length = f.value.toNat ∧
        (∀ i : Nat, i < f.value.toNat → (t.ports.get p).buffer[i]? = some (s.dev.tableWord p (f.selector.toNat + i))) ∧
        (t.ports.get p).cursor = f.selector.toNat ∧ (t.ports.get p).remaining = f.value.toNat ∧
        t.dev.places.length = s.dev.places.length ∧
        ∀ (n : Nat) (q q' : Place), s.dev.places[n]? = some q → t.dev.places[n]? = some q' →
          q' = { q with marks := q'.marks } ∧ q'.marks.get p.other = q.marks.get p.other ∧
          ∀ k : ChangeKind, q'.marked p k = (q.marked p k &&
            (decide (k = .fault) || !decide (f.selector.toNat ≤ 8 * n ∧ 8 * n + 8 ≤ f.selector.toNat + f.value.toNat))))

/-- The layout of the table's words (R165, R183, "Place record words", "Station and global record words"): the eight words of the place
that holds a number, 0 in those of a number at or above the list length; the four words of a station, 0 in an absent field; and the words
of the global record as STATUS reads them. Words 6 and 180 hold the reading port's sticky sets, every other word reads the same at both. -/
def Obligations.TheTableWordsStandForTheRecords : Prop :=
  (∀ (d : Device) (port : Port) (n : Nat) (p : Place), n < 16 → d.places[n]? = some p →
     let w := fun k : Nat => d.tableWord port (8 * n + k)
     w 0 = d.placeWord0 p ∧
     (w 0).extractLsb' 13 3 = (match p.reported with
       | .empty => 0 | .small => 1 | .adult => 2 | .childAnchored => 3 | .childBelted => 3 | .unknown => 4) ∧
     (w 0).getLsbD 12 = decide (p.reported = .childBelted) ∧
     (w 0).extractLsb' 10 2 = (match p.verdict with | .notFitted => 0 | .enable => 1 | .suppress => 2) ∧
     (w 0).extractLsb' 7 3 = (match p.stage with | .off => 0 | .watch => 1 | .lamp => 2 | .chime => 3 | .lapsed => 4) ∧
     (w 0).extractLsb' 5 2 = (match p.buckle with | .none => 0 | .unlatched => 1 | .latched => 2 | .fault => 3) ∧
     (w 0).getLsbD 4 = decide (p.id ∈ d.accepted) ∧ (w 0).getLsbD 3 = p.fresh ∧
     (w 0).extractLsb' 0 3 = (match p.cal with
       | .ended .none => 0 | .running _ => 1 | .ended .done => 2 | .ended .storeFail => 3 | .ended .abortedCell => 4
       | .ended .abortedDisturbed => 5 | .ended .abortedNode => 6 | .ended .abortedFrozen => 7) ∧
     w 1 = (match p.filter with | none => 65535 | some load => BitVec.ofNat 16 load) ∧
     w 2 = (match p.total with | none => 65535 | some load => BitVec.ofNat 16 load) ∧
     (w 3).extractLsb' 14 2 = (match p.rightAnchor with | .none => 0 | .unlatched => 1 | .latched => 2 | .fault => 3) ∧
     (w 3).extractLsb' 12 2 = (match p.leftAnchor with | .none => 0 | .unlatched => 1 | .latched => 2 | .fault => 3) ∧
     (w 3).getLsbD 11 = p.total.isNone ∧ (w 3).getLsbD 10 = p.degraded ∧ (w 3).getLsbD 9 = p.atLeast ∧
     (w 3).extractLsb' 0 9 = BitVec.ofNat 9 p.conc ∧
     (w 4).extractLsb' 12 4 = BitVec.ofNat 4 (p.id.station.val + 1) ∧ (w 4).extractLsb' 10 2 = BitVec.ofNat 2 p.id.seat.val ∧
     (w 4).getLsbD 9 = p.policy.restraintFitted ∧ (w 4).getLsbD 8 = p.policy.childReminder ∧
     (w 4).getLsbD 7 = p.policy.reminderEnable ∧
     (w 4).extractLsb' 4 3 = (match p.pendingClass with
       | some .empty => 0 | some .small => 1 | some .adult => 2 | some .childAnchored => 3 | some .unknown => 4
       | some .childBelted => 5 | none => 7) ∧
     (w 4).extractLsb' 0 4 = BitVec.ofNat 4 p.count ∧
     (∀ b ∈ [(0, FaultKind.cellOpen), (1, .cellsOpen), (2, .cellSat), (3, .anchorFault), (4, .anchorPartial), (5, .buckleFault),
         (6, .cellCal), (7, .linkPattern), (8, .nodeRestart), (9, .nodeSilent), (10, .driftLimit), (11, .calStoreFail)],
       (w 5).getLsbD b.1 = p.hasFault b.2 ∧ (w 6).getLsbD b.1 = (p.sticky.get port).getLsbD b.2.bit) ∧
     (w 5).extractLsb' 12 4 = 0 ∧ (w 6).extractLsb' 12 4 = 0 ∧ w 7 = BitVec.ofNat 16 p.age) ∧
  (∀ (d : Device) (port : Port) (i : Nat), i < 128 → d.places.length ≤ i / 8 → d.tableWord port i = 0) ∧
  (∀ (d : Device) (port : Port) (c : Code),
     let w := fun k : Nat => d.tableWord port (128 + 4 * c.val + k)
     (w 0).extractLsb' 3 2 = BitVec.ofNat 2 ((d.station c).count.getD 0) ∧
     (w 0).extractLsb' 0 3 = (match (d.station c).state with
       | .absent => 0 | .probing => 1 | .loading => 2 | .testing => 3 | .active => 4 | .silent => 5 | .faulted => 6) ∧
     (w 0).extractLsb' 5 11 = 0 ∧ w 1 = ((d.station c).serial.getD 0).extractLsb' 16 16 ∧ w 2 = ((d.station c).serial.getD 0).extractLsb' 0 16 ∧
     w 3 = BitVec.ofNat 16 (d.station c).failures) ∧
  (∀ (d : Device) (port : Port) (k : Nat), k < 8 → d.tableWord port (176 + k) = d.globalWord port k) ∧
  ∀ (d : Device) (i : Nat), (i < 128 → i % 8 ≠ 6) → i ≠ 180 → d.tableWord .a i = d.tableWord .b i

/-- CHANGES answers OK with the set of the place numbers at which any change kind is pending at the port, and clears nothing (R163).
REMINDER_SUMMARY answers OK with the lamp mask, the set of the places in LAMP, CHIME or LAPSED, for selector 0 and with chime demand
and unfastened count for selector 1, refuses any other selector RANGE with data 0, and clears nothing (R164). -/
def Obligations.ChangesAndReminderSummaryReadAndClearNothing : Prop :=
  (∀ (p : Port) (f : Frame) (s : State), (s.ports.get p).loaded.isSome = true →
     ∃ (t : State) (word : Word), exec (.changes p f) s = .next t ∧ s.blocksKept t ∧ s.transferKept t p ∧
       s.answered t p { status := .ok, echo := 0x05, data := word } ∧
       ∀ n : Nat, n < 16 → (word.getLsbD n = true ↔
         ∃ q : Place, s.dev.places[n]? = some q ∧ ∃ k : ChangeKind, q.marked p k = true)) ∧
  (∀ (p : Port) (f : Frame) (s : State), (s.ports.get p).loaded.isSome = true →
     ∃ t : State, exec (.reminderSummary p f) s = .next t ∧ s.blocksKept t ∧ s.transferKept t p ∧
       (f.selector.toNat = 0 → s.answered t p { status := .ok, echo := 0x08, data := s.dev.globalWord p 6 }) ∧
       (s.dev.publishedLaw → ∀ n : Nat, n < 16 → ((s.dev.globalWord p 6).getLsbD n = true ↔
         ∃ q : Place, s.dev.places[n]? = some q ∧ (q.stage = .lamp ∨ q.stage = .chime ∨ q.stage = .lapsed))) ∧
       (f.selector.toNat = 1 → s.answered t p { status := .ok, echo := 0x08, data := s.dev.globalWord p 7 }) ∧
       (1 < f.selector.toNat → s.answered t p { status := .range, echo := 0x08, data := 0 }))

/-- FAULTS_READ answers with the requesting port's sticky set, of the place or, with the global flag, of the part, and clears the
FAULT mark of the place or the port's global fault mark; no sticky set changes (R171, R176).
FAULTS_CLEAR answers with the sticky set as it stood, makes the requesting port's set equal to the live set and clears the FAULT
mark of the place or the port's global fault mark; the other port's sets and marks are untouched (R171, R177). -/
def Obligations.FaultsReadAndFaultsClearActAtOnePort : Prop :=
  (∀ (p : Port) (f : Frame) (s : State), (s.ports.get p).loaded.isSome = true →
     ∃ t : State, exec (.faultsRead p f) s = .next t ∧ s.transferKept t p ∧ t.dev.live = s.dev.live ∧
       (∀ port : Port, (t.dev.report.get port).stickyGlobal = (s.dev.report.get port).stickyGlobal) ∧
       (t.dev.report.get p.other).globalMark = (s.dev.report.get p.other).globalMark ∧
       (f.global = true →
         s.answered t p { status := .ok, echo := 0x06, data := (s.dev.report.get p).stickyGlobal.setWidth 16 } ∧
         (t.dev.report.get p).globalMark = false ∧ t.dev.places = s.dev.places) ∧
       (f.global = false → s.dev.places.length ≤ f.selector.toNat →
         s.answered t p { status := .range, echo := 0x06, data := 0 } ∧ s.blocksKept t) ∧
       ∀ q : Place, f.global = false → s.dev.places[f.selector.toNat]? = some q →
         s.answered t p { status := .ok, echo := 0x06, data := (q.sticky.get p).setWidth 16 } ∧
         ∃ q' : Place, t.dev.places = s.dev.places.set f.selector.toNat q' ∧ q' = { q with marks := q'.marks } ∧
           q'.marks.get p.other = q.marks.get p.other ∧
           ∀ k : ChangeKind, q'.marked p k = (q.marked p k && decide (k ≠ .fault))) ∧
  (∀ (p : Port) (f : Frame) (s : State), (s.ports.get p).loaded.isSome = true →
     ∃ t : State, exec (.faultsClear p f) s = .next t ∧ s.transferKept t p ∧ t.dev.live = s.dev.live ∧
       (t.dev.report.get p.other).stickyGlobal = (s.dev.report.get p.other).stickyGlobal ∧
       (t.dev.report.get p.other).globalMark = (s.dev.report.get p.other).globalMark ∧
       (f.global = true →
         s.answered t p { status := .ok, echo := 0x07, data := (s.dev.report.get p).stickyGlobal.setWidth 16 } ∧
         (t.dev.report.get p).stickyGlobal = s.dev.live ∧
         (t.dev.report.get p).globalMark = false ∧ t.dev.places = s.dev.places) ∧
       (f.global = false → s.dev.places.length ≤ f.selector.toNat →
         s.answered t p { status := .range, echo := 0x07, data := 0 } ∧ s.blocksKept t) ∧
       ∀ q : Place, f.global = false → s.dev.places[f.selector.toNat]? = some q →
         s.answered t p { status := .ok, echo := 0x07, data := (q.sticky.get p).setWidth 16 } ∧
         ∃ q' : Place, t.dev.places = s.dev.places.set f.selector.toNat q' ∧
           q' = { q with marks := q'.marks, sticky := q'.sticky } ∧
           q'.sticky.get p = q.live ∧ q'.sticky.get p.other = q.sticky.get p.other ∧
           q'.marks.get p.other = q.marks.get p.other ∧
           ∀ k : ChangeKind, q'.marked p k = (q.marked p k && decide (k ≠ .fault)))

/-- SET_PARAM (R102, R142, R169): the parameter takes the value exactly when the answer is OK, every other parameter keeps its own, no
class, verdict or load of a place changes, and the answer carries the parameter's value after the request. An accepted write of v_lamp,
v_chime, t_lamp or t_chime evaluates every place's stage against the new value, with the mark of R154; any other changes no place (R142,
R147 to R151). That the mark compares the place before the event with it after is the model's choice (assumption 30). -/
def Obligations.SetParamWritesOneParameter : Prop :=
  ∀ (p : Port) (f : Frame) (s : State), (s.ports.get p).loaded.isSome = true →
    ∃ t : State, exec (.setParam p f) s = .next t ∧ s.transferKept t p ∧
      s.answered t p {
        status := setParamAnswer s.dev p f.selector.toNat f.value.toNat, echo := 0x10
        data := BitVec.ofNat 16 (t.dev.params.value f.selector.toNat) } ∧
      (setParamAnswer s.dev p f.selector.toNat f.value.toNat ≠ .ok → s.blocksKept t) ∧
      (setParamAnswer s.dev p f.selector.toNat f.value.toNat = .ok →
        t.dev.params.value f.selector.toNat = f.value.toNat ∧
        (∀ id : Nat, id ≠ f.selector.toNat → t.dev.params.value id = s.dev.params.value id) ∧
        t.dev.mode = s.dev.mode ∧ t.dev.st = s.dev.st ∧ t.dev.vehicle = s.dev.vehicle ∧ t.dev.lc = s.dev.lc ∧
        t.dev.places.map (fun q => { q with stage := .off, timer := 0, marks := { a := 0, b := 0 } }) =
          s.dev.places.map (fun q => { q with stage := .off, timer := 0, marks := { a := 0, b := 0 } }) ∧
        (f.selector.toNat < 13 → t.dev.places = s.dev.places) ∧
        (13 ≤ f.selector.toNat → ∀ (n : Nat) (q q' : Place), s.dev.places[n]? = some q → t.dev.places[n]? = some q' →
          q' = { q with stage := q'.stage, timer := q'.timer, marks := q'.marks } ∧ s.dev.evaluated t.dev q q'))

/-- SET_POLICY (R54 to R56): on OK each field the mask names takes its new value and the others keep theirs; the answer carries the
three fields after the request. restraint_fitted off gives NOT_FITTED outside FROZEN; in FROZEN the verdict stays. A change of
reminder_enable or child_reminder evaluates the place's stage, and nothing else does (R56, R151). -/
def Obligations.SetPolicyWritesTheFieldsNamed : Prop :=
  ∀ (p : Port) (f : Frame) (s : State), (s.ports.get p).loaded.isSome = true →
    ∃ t : State, exec (.setPolicy p f) s = .next t ∧ s.transferKept t p ∧
      (setPolicyAnswer s.dev p f ≠ .ok →
        s.answered t p { status := setPolicyAnswer s.dev p f, echo := 0x11, data := 0 } ∧ s.blocksKept t) ∧
      ∀ q : Place, setPolicyAnswer s.dev p f = .ok → s.dev.places[f.selector.toNat]? = some q →
        ∃ q' : Place, t.dev.places = s.dev.places.set f.selector.toNat q' ∧
          s.answered t p { status := .ok, echo := 0x11, data := q'.policy.word } ∧
          q' = { q with policy := q'.policy, verdict := q'.verdict, stage := q'.stage, timer := q'.timer, marks := q'.marks } ∧
          q'.policy.reminderEnable = (if f.value.getLsbD 0 then f.value.getLsbD 4 else q.policy.reminderEnable) ∧
          q'.policy.childReminder = (if f.value.getLsbD 1 then f.value.getLsbD 5 else q.policy.childReminder) ∧
          q'.policy.restraintFitted = (if f.value.getLsbD 2 then f.value.getLsbD 6 else q.policy.restraintFitted) ∧
          (s.dev.mode = .frozen → q'.verdict = q.verdict) ∧
          (s.dev.mode ≠ .frozen → q.policy.restraintFitted = true → q'.policy.restraintFitted = false →
            q'.verdict = .notFitted) ∧
          (q'.policy.reminderEnable ≠ q.policy.reminderEnable ∨ q'.policy.childReminder ≠ q.policy.childReminder →
            s.dev.evaluated t.dev q q') ∧
          (q'.policy.reminderEnable = q.policy.reminderEnable → q'.policy.childReminder = q.policy.childReminder →
            q'.stage = q.stage ∧ q'.timer = q.timer ∧ ∀ port : Port, q'.marked port .reminder = q.marked port .reminder)

/-- SET_ATTN: a value with a reserved bit is refused RANGE; any other becomes the requesting port's enable set, the other port's
untouched. The data is the enable set after the request, and the port's line and priority follow it at once (R170, R182). -/
def Obligations.SetAttnReplacesThePortsEnableSet : Prop :=
  ∀ (p : Port) (f : Frame) (s : State), (s.ports.get p).loaded.isSome = true →
    ∃ t : State, exec (.setAttn p f) s = .next t ∧ s.transferKept t p ∧ t.dev.places = s.dev.places ∧
      (t.dev.report.get p.other).enable = (s.dev.report.get p.other).enable ∧
      (∀ port : Port, (t.dev.report.get port).globalMark = (s.dev.report.get port).globalMark ∧
        (t.dev.report.get port).stickyGlobal = (s.dev.report.get port).stickyGlobal) ∧
      t.dev.mapPending = s.dev.mapPending ∧ t.dev.vehicle = s.dev.vehicle ∧
      (f.value.extractLsb' 7 9 ≠ 0 →
        s.answered t p { status := .range, echo := 0x12, data := (s.dev.report.get p).enable.setWidth 16 } ∧
        s.blocksKept t) ∧
      (f.value.extractLsb' 7 9 = 0 →
        s.answered t p { status := .ok, echo := 0x12, data := f.value } ∧
        (t.dev.report.get p).enable = f.value.extractLsb' 0 7) ∧
      (∀ cause : Nat, t.dev.causePending p cause = s.dev.causePending p cause) ∧
      (t.dev.report.get p).priority = t.dev.priorityOf p ∧
      ((t.dev.report.get p).lineLow = true ↔ (t.dev.report.get p).priority ≠ 0)

/-- VEHICLE_STATE from port B with no reserved bit set: ignition and speed are taken, the lapse timer restarts, the lapse flag and
VEHICLE_LAPSED clear, the speed-zero instant follows R140, a trip end clears every fastened-this-trip flag; from port A, or with
a reserved bit, it is refused and changes nothing. The data is the vehicle state word after the request (R138, R140, R144). An ignition
turned ON sets the flag of each place that reads LATCHED; then every place's stage is evaluated against the new ignition and speed, OFF to
WATCH, LAMP or CHIME, WATCH to LAMP, LAMP to CHIME, CHIME to LAPSED, any to OFF, or held (R144 to R151), with the mark of R154, which
compares the place before the event with it after (the model's choice, assumption 30). -/
def Obligations.VehicleStateSuppliesIgnitionAndSpeed : Prop :=
  ∀ (f : Frame) (s : State),
    ((s.ports.get .a).loaded.isSome = true →
      ∃ t : State, exec (.vehicleState .a f) s = .next t ∧ s.blocksKept t ∧ s.transferKept t .a ∧
        s.answered t .a { status := .notPermitted, echo := 0x13, data := s.dev.vehicle.word }) ∧
    ((s.ports.get .b).loaded.isSome = true →
      ∃ t : State, exec (.vehicleState .b f) s = .next t ∧ s.transferKept t .b ∧
        (f.value.extractLsb' 8 7 ≠ 0 →
          s.answered t .b { status := .range, echo := 0x13, data := s.dev.vehicle.word } ∧ s.blocksKept t) ∧
        (f.value.extractLsb' 8 7 = 0 →
          s.answered t .b { status := .ok, echo := 0x13, data := f.value } ∧
          t.dev.vehicle.ignition = f.value.getLsbD 15 ∧ t.dev.vehicle.speed = some (f.value.extractLsb' 0 8).toNat ∧
          t.dev.vehicle.lapseStart = some (s.dev.atMoment f.moment).stamp ∧
          t.dev.live.getLsbD GlobalFault.vehicleLapsed.bit = false ∧
          t.dev.vehicle.speedZero =
            (if (f.value.extractLsb' 0 8).toNat ≠ 0 then none
             else if s.dev.vehicle.speed = some 0 then s.dev.vehicle.speedZero
             else some (s.dev.atMoment f.moment).stamp) ∧
          (s.dev.vehicle.ignition = true → f.value.getLsbD 15 = false →
            ∀ q ∈ t.dev.places, q.fastened = false ∧ q.stage = .off) ∧
          t.dev.params = s.dev.params ∧ t.dev.mode = s.dev.mode ∧ t.dev.st = s.dev.st ∧
          t.dev.places.map Place.id = s.dev.places.map Place.id ∧
          ∀ (n : Nat) (p q : Place), s.dev.places[n]? = some p → t.dev.places[n]? = some q →
            q = { p with fastened := q.fastened, stage := q.stage, timer := q.timer, marks := q.marks } ∧
            q.fastened =
              (if s.dev.vehicle.ignition = true ∧ f.value.getLsbD 15 = false then false
               else if s.dev.vehicle.ignition = false ∧ f.value.getLsbD 15 = true ∧ p.buckle = .latched then true
               else p.fastened) ∧
            s.dev.evaluated t.dev p q))

/-- CAL_ZERO (R124 to R126, R107, R171): the table's answer with the place's calibration state and sample count as data; an accepted
request on a place with none running starts one at no samples, holds the class with no pending class, and takes ENABLE away;
every other answer changes nothing. -/
def Obligations.CalZeroStartsMergesOrRefuses : Prop :=
  ∀ (p : Port) (f : Frame) (s : State), (s.ports.get p).loaded.isSome = true →
    ∃ t : State, exec (.calZero p f) s = .next t ∧ s.transferKept t p ∧
      s.answered t p { status := calZeroAnswer s.dev p f, echo := 0x18, data := t.dev.calData f.selector.toNat } ∧
      ((calZeroAnswer s.dev p f ≠ .ok ∨
        ∃ q : Place, s.dev.places[f.selector.toNat]? = some q ∧ q.calRunning = true) → s.blocksKept t) ∧
      ∀ q : Place, calZeroAnswer s.dev p f = .ok → s.dev.places[f.selector.toNat]? = some q →
        q.calRunning = false →
        ∃ q' : Place, t.dev.places = s.dev.places.set f.selector.toNat q' ∧
          q'.cal = .running { forced := f.forced, samples := 0, sums := Vector.replicate 12 0, newZeros := none } ∧
          q'.reported = q.reported ∧ q'.pendingClass = none ∧ q'.count = 0 ∧ q'.verdict ≠ .enable ∧
          q'.refZeros = q.refZeros ∧ q'.trims = q.trims ∧ (∀ port : Port, q'.marked port .cal = q.marked port .cal)

/-- LINK_TEST (R37, R171): a selector outside 1..12 is refused RANGE with data 0; otherwise the table's answer with word 0 of the
station after the request. An accepted test with no scan in progress begins at once, TESTING with the retained flag set and PATTERN_ON
asked for; with one in progress it is left pending; one already pending and a refused one change nothing. -/
def Obligations.LinkTestBeginsOrWaits : Prop :=
  (∀ (p : Port) (f : Frame) (s : State), (s.ports.get p).loaded.isSome = true →
    (f.selector.toNat = 0 ∨ 12 < f.selector.toNat) →
    ∃ t : State, exec (.linkTest p f) s = .next t ∧ s.transferKept t p ∧ s.blocksKept t ∧
      s.answered t p { status := .range, echo := 0x19, data := 0 }) ∧
  ∀ (p : Port) (f : Frame) (s : State) (c : Code), (s.ports.get p).loaded.isSome = true → f.selector.toNat = c.val + 1 →
    ∃ t : State, exec (.linkTest p f) s = .next t ∧ s.transferKept t p ∧
      s.answered t p { status := linkTestAnswer s.dev f, echo := 0x19, data := (t.dev.station c).word 0 } ∧
      t.dev.places = s.dev.places ∧ (∀ k : Code, k ≠ c → t.dev.station k = s.dev.station k) ∧
      (linkTestAnswer s.dev f ≠ .ok ∨ (s.dev.station c).testPending = true → s.blocksKept t) ∧
      (linkTestAnswer s.dev f = .ok → (s.dev.station c).testPending = false →
        (s.dev.record c).scan = none →
        (t.dev.station c).state = .testing ∧ (t.dev.station c).retained = true ∧ (t.dev.station c).testPending = false ∧
        (t.dev.record c).due = none ∧
        t.dev.ss.waiting = s.dev.ss.waiting ++ [{ station := c, cmd := .patternOn, block := .st }]) ∧
      (linkTestAnswer s.dev f = .ok → (s.dev.record c).scan.isSome = true →
        t.dev.station c = { s.dev.station c with testPending := true } ∧ t.dev.record c = s.dev.record c ∧
        t.dev.ss.waiting = s.dev.ss.waiting)

/-- ACCEPT_MAP (R50, R52, R53): on OK the accepted map becomes the identities of the current list, the accepted generation the one
named, map pending false, and every listed place takes MAP at both ports; the data is always the current generation, and a refused
request changes nothing. -/
def Obligations.AcceptMapConfirmsTheCurrentList : Prop :=
  ∀ (p : Port) (f : Frame) (s : State), (s.ports.get p).loaded.isSome = true →
    ∃ t : State, exec (.acceptMap p f) s = .next t ∧ s.transferKept t p ∧
      s.answered t p {
        status := acceptMapAnswer s.dev p f, echo := 0x20, data := s.dev.generation.setWidth 16 } ∧
      (acceptMapAnswer s.dev p f ≠ .ok → s.blocksKept t) ∧
      (acceptMapAnswer s.dev p f = .ok →
        t.dev.accepted = s.dev.places.map Place.id ∧ t.dev.acceptedGen.toNat = f.value.toNat ∧ t.dev.mapPending = false ∧
        t.dev.generation = s.dev.generation ∧ t.dev.places.map Place.id = s.dev.places.map Place.id ∧
        t.dev.mode = s.dev.mode ∧ t.dev.st = s.dev.st ∧ t.dev.vehicle = s.dev.vehicle ∧
        ∀ q ∈ t.dev.places, ∀ port : Port, q.marked port .map = true)

/-- FREEZE (R112 to R114, R129): from port B NOT_PERMITTED; in FROZEN OK with no effect; else the mode becomes FROZEN, every place
keeps class and verdict with no pending class, every long calibration ends ABORTED_FROZEN with its CAL mark and its waiting store
withdrawn, every stage is OFF. The data is the current generation. -/
def Obligations.FreezeHoldsClassesAndVerdicts : Prop :=
  ∀ (p : Port) (f : Frame) (s : State), (s.ports.get p).loaded.isSome = true →
    ∃ t : State, exec (.freeze p f) s = .next t ∧ s.transferKept t p ∧
      s.answered t p {
        status := if p = .b then .notPermitted else .ok, echo := 0x21, data := s.dev.generation.setWidth 16 } ∧
      ((p = .b ∨ s.dev.mode = .frozen) → s.blocksKept t) ∧
      (p = .a → s.dev.mode ≠ .frozen →
        t.dev.mode = .frozen ∧ (t.dev.globalWord p 0).extractLsb' 0 2 = 2 ∧
        t.dev.places.length = s.dev.places.length ∧ t.dev.st = s.dev.st ∧
        t.dev.ss.records = s.dev.ss.records ∧ t.dev.lc = s.dev.lc ∧
        (∀ r ∈ t.dev.ss.waiting, ∀ (seat : Seat) (zeros : Vector Word 12), r.cmd ≠ .calStore seat zeros) ∧
        ∀ (n : Nat) (q q' : Place), s.dev.places[n]? = some q → t.dev.places[n]? = some q' →
          q'.id = q.id ∧ q'.reported = q.reported ∧ q'.verdict = q.verdict ∧ q'.pendingClass = none ∧ q'.count = 0 ∧
          q'.stage = .off ∧ q'.timer = 0 ∧ q'.calRunning = false ∧ s.dev.evaluated t.dev q q' ∧
          (q.calRunning = true → q'.cal = .ended .abortedFrozen ∧ ∀ port : Port, q'.marked port .cal = true) ∧
          (q.calRunning = false → q'.cal = q.cal) ∧ q'.refZeros = q.refZeros ∧ q'.trims = q.trims ∧
          q'.total = q.total ∧ q'.filter = q.filter)

/-- UNFREEZE (R118, R119): on OK the mode becomes RUN; each place with no calibration running that cannot be judged becomes UNKNOWN,
every other keeps its held class; the verdicts are those of R108, and the stages are evaluated (R151). A refused
request changes nothing; the data is the current
generation. -/
def Obligations.UnfreezeReleasesAfterFiveSecondsAtRest : Prop :=
  ∀ (p : Port) (f : Frame) (s : State), (s.ports.get p).loaded.isSome = true →
    ∃ t : State, exec (.unfreeze p f) s = .next t ∧ s.transferKept t p ∧
      s.answered t p { status := unfreezeAnswer s.dev p, echo := 0x22, data := s.dev.generation.setWidth 16 } ∧
      (unfreezeAnswer s.dev p ≠ .ok → s.blocksKept t) ∧
      (unfreezeAnswer s.dev p = .ok →
        t.dev.mode = .run ∧ t.dev.places.length = s.dev.places.length ∧ t.dev.st = s.dev.st ∧ t.dev.vehicle = s.dev.vehicle ∧
        ∀ (n : Nat) (q q' : Place), s.dev.places[n]? = some q → t.dev.places[n]? = some q' → q.calRunning = false →
          q'.id = q.id ∧ q'.pendingClass = none ∧ q'.count = 0 ∧
          q'.reported = (if q.total = none ∨ q.fresh = false ∨ q.hasFault .anchorPartial = true ∨
            q.hasFault .anchorFault = true then .unknown else q.reported) ∧
          q'.verdict = t.dev.env.verdictOf q' ∧
          (q'.reported ≠ q.reported → ∀ port : Port, q'.marked port .cls = true) ∧
          (q'.verdict ≠ q.verdict → ∀ port : Port, q'.marked port .restraint = true) ∧ s.dev.evaluated t.dev q q')

/-- The 40 bits of a request frame, received at a port, spell the request with its flags, selector and value (R156, R157, R183). -/
def Obligations.AReceivedFrameSpellsItsRequest : Prop :=
  ∀ (r : Request) (p : Port) (f : Frame), frameCommand p f.moment (requestBits r.code f) = r.command p f

/-! ## What a scan brings -/

/-- The filter (R85 to R87): uninitialised it takes the first formed total, on an INDEFINITE total it is held, and otherwise it steps
toward the total without passing it, by at least one load unit while they differ. -/
def Obligations.TheFilterMovesTowardTheTotal : Prop :=
  ∀ (shift f t : Nat),
    filterAfter shift none (some t) = some t ∧ filterAfter shift (some f) none = some f ∧
    filterAfter shift none none = none ∧ filterAfter 0 (some f) (some t) = some t ∧
    ∃ g : Nat, filterAfter shift (some f) (some t) = some g ∧
      (f < t → f < g ∧ g ≤ t ∧ (2 ^ shift ≤ t - f → g = f + (t - f) / 2 ^ shift)) ∧
      (t < f → t ≤ g ∧ g < f ∧ (2 ^ shift ≤ f - t → g = f - (f - t) / 2 ^ shift)) ∧
      (f = t → g = f)

/-- A scan's SAMPLE answered ACK with the excited flag set, the boot and pattern flags clear, makes one pass of each listed place of
the station and of no other (R64, R66, R75): the place is fresh with age 0, NODE_SILENT is not live, its switch readings are those of
its seat index, and from the station's calibration values and its cell words come the total with its flags, the concentration, the
filter (R76 to R88), and the cell, anchor and buckle faults (R89 to R93). In RUN with no long calibration on it the decision table gives
its candidate, and persistence its class (R103 to R106). The fastened flag is set where the buckle reads LATCHED with the ignition ON
(R144), and then the stage is evaluated for the class so left (R111, R147 to R151), once more where the pass ends a calibration (R132),
with the mark of R154, which compares the place before the event with it after (the model's choice, assumption 30). -/
def Obligations.ASucceededScanMakesAPassOfEachPlace : Prop :=
  ∀ (m : Moment) (ch : RxChar) (s : State) (x : Exchange) (a : Answer),
    s.dev.mapLaw → s.dev.lc.exchange = some x → (x.phase = some .awaiting ∨ x.phase = some .receiving) →
    checkAnswer x.cmd (s.dev.station x.station).count (x.rx ++ [ch.data]) (charWellFormed ch) = .accepted a →
    x.cmd = .sample → x.block = .ss → (s.dev.record x.station).scan.isSome = true →
    a.result = .ack → a.boot = false → a.excited = true → a.pattern = false →
    ∃ t : State, exec (.linkCharacterReceived m ch) s = .next t ∧
      (t.dev.station x.station).failures = 0 ∧ (t.dev.record x.station).scan = none ∧
      t.dev.places.map Place.id = s.dev.places.map Place.id ∧ t.dev.generation = s.dev.generation ∧
      ∀ (n : Nat) (p q : Place), s.dev.places[n]? = some p → t.dev.places[n]? = some q →
        (p.id.station ≠ x.station →
          q = { p with verdict := q.verdict, stage := q.stage, timer := q.timer, marks := q.marks } ∧
          (t.dev.mode = s.dev.mode → q = p)) ∧
        (p.id.station = x.station →
          let v := (s.dev.station x.station).valuesOf p.id.seat
          let r := readingsOf a.payload p.id.seat
          let cells := contributions p v r
          let missing := (List.finRange 12).countP (cellMissing v r)
          let saturated := (List.finRange 12).any (fun i => !cellMissing v r i && cellClass r.words[i] == .saturated)
          let candidate := decisionTable s.dev.params q p.reported
          let count := if p.pendingClass = some candidate then p.count + 1 else 1
          q.fresh = true ∧ q.age = 0 ∧ q.hasFault .nodeSilent = false ∧
          q.buckle = buckleOf r.inputs ∧ q.leftAnchor = leftAnchorOf r.inputs ∧ q.rightAnchor = rightAnchorOf r.inputs ∧
          q.total = clampTotal (rawTotal cells missing) ∧
          q.atLeast = (rawTotal cells missing).any (fun total => saturated || decide (65534 < total)) ∧
          q.degraded = decide (missing = 1) ∧ q.conc = concentration cells q.total ∧
          q.filter = filterAfter s.dev.params.filterShift p.filter q.total ∧
          q.hasFault .cellOpen = decide (1 ≤ missing) ∧ q.hasFault .cellsOpen = decide (2 ≤ missing) ∧
          q.hasFault .cellSat = saturated ∧
          q.hasFault .anchorFault = decide (q.leftAnchor = .fault ∨ q.rightAnchor = .fault) ∧
          q.partialCount = partialAfter p.partialCount q.leftAnchor q.rightAnchor ∧
          q.hasFault .anchorPartial =
            anchorPartialAfter q.partialCount q.leftAnchor q.rightAnchor (p.hasFault .anchorPartial) ∧
          q.hasFault .buckleFault = decide (q.buckle = .fault) ∧
          (p.buckle ≠ q.buckle → ∀ port : Port, q.marked port .belt = true) ∧
          (s.dev.mode = .run → p.calRunning = false →
            (candidate = p.reported → q.reported = p.reported ∧ q.pendingClass = none ∧ q.count = 0) ∧
            (candidate ≠ p.reported → s.dev.params.threshold candidate ≤ count →
              q.reported = candidate ∧ q.pendingClass = none ∧ q.count = 0 ∧ ∀ port : Port, q.marked port .cls = true) ∧
            (candidate ≠ p.reported → count < s.dev.params.threshold candidate →
              q.reported = p.reported ∧ q.pendingClass = some candidate ∧ q.count = count)) ∧
          (s.dev.mode ≠ .run → q.reported = p.reported) ∧
          q.fastened = (p.fastened || (decide (q.buckle = .latched) && s.dev.vehicle.ignition)) ∧
          (t.dev.mode = s.dev.mode → (p.calRunning = false ∨ q.calRunning = true) → s.dev.evaluated t.dev p q) ∧
          (t.dev.mode = s.dev.mode → p.calRunning = true → q.calRunning = false →
            let first := t.dev.stageAfter { q with reported := p.reported, stage := p.stage, timer := p.timer }
            (q.stage, q.timer) = t.dev.stageAfter { q with stage := first.1, timer := first.2 } ∧
            ∀ port : Port, q.marked port .reminder = (p.marked port .reminder || decide (s.dev.reminderMoved t.dev p q))))

/-- The calibrations at a pass and at the end of a CAL_STORE. A pass of a place whose calibration is SAMPLING ends it ABORTED_CELL when a
usable cell reads OPEN or SATURATED, ABORTED_DISTURBED when it is not forced and the total is INDEFINITE or at least occ_off, and else
adds the codes of the usable cells; the 32nd sample forms the new zeros, and their CAL_STORE is asked for (R127, R130). A pass of a
trim-eligible place with a mark fallen moves each usable VALID cell's trim one code toward its target within 64, DRIFT_LIMIT rising
where one is held, and any other pass moves none (R134 to R136). At the end of the CAL_STORE the new zeros are in force with trims 0,
DONE when it was answered ACK and else STORE_FAIL, and a boot flag in its answer is taken as a node restart (R32, R131 to R133, R136). -/
def Obligations.CalibrationsTakeSamplesTrimsAndStores : Prop :=
  (∀ (m : Moment) (ch : RxChar) (s : State) (x : Exchange) (a : Answer),
    s.dev.mapLaw → s.dev.lc.exchange = some x → (x.phase = some .awaiting ∨ x.phase = some .receiving) →
    checkAnswer x.cmd (s.dev.station x.station).count (x.rx ++ [ch.data]) (charWellFormed ch) = .accepted a →
    x.cmd = .sample → x.block = .ss → (s.dev.record x.station).scan.isSome = true →
    a.result = .ack → a.boot = false → a.excited = true → a.pattern = false →
    ∃ t : State, exec (.linkCharacterReceived m ch) s = .next t ∧
      ∀ (n : Nat) (p q : Place), s.dev.places[n]? = some p → t.dev.places[n]? = some q → p.id.station = x.station →
        let v := (s.dev.station x.station).valuesOf p.id.seat
        let r := readingsOf a.payload p.id.seat
        let target := fun i : Cell => (cellCode r.words[i] : Int) - (p.refZeros[i].toNat : Int)
        let trims := fun i : Cell => v.unusable[i] = false ∧ cellClass r.words[i] = .valid
        q.refZeros = p.refZeros ∧
        (∀ run : CalRun, p.cal = .running run → run.newZeros = none →
          ((∃ i : Cell, v.unusable[i] = false ∧ (cellClass r.words[i] = .opened ∨ cellClass r.words[i] = .saturated)) →
            q.cal = .ended .abortedCell ∧ ∀ port : Port, q.marked port .cal = true) ∧
          ((∀ i : Cell, v.unusable[i] = false → cellClass r.words[i] = .valid ∨ cellClass r.words[i] = .floor) →
            (run.forced = false → (∀ total ∈ q.total, s.dev.params.occOff ≤ total) →
              q.cal = .ended .abortedDisturbed ∧ ∀ port : Port, q.marked port .cal = true) ∧
            ((run.forced = true ∨ ∃ total ∈ q.total, total < s.dev.params.occOff) →
              ∃ sums : Vector Nat 12,
                (∀ i : Cell, sums[i] = run.sums[i] + if v.unusable[i] then 0 else cellCode r.words[i]) ∧
                (run.samples + 1 ≠ 32 → q.cal = .running { run with samples := run.samples + 1, sums := sums }) ∧
                (run.samples + 1 = 32 → ∃ zeros : Vector Word 12,
                  (∀ i : Cell, zeros[i] = if v.unusable[i] then p.refZeros[i] else BitVec.ofNat 16 ((sums[i] + 16) / 32)) ∧
                  q.cal = .running { run with samples := 32, sums := sums, newZeros := some zeros } ∧
                  { station := x.station, cmd := .calStore p.id.seat zeros, block := .cu } ∈ t.dev.ss.waiting)))) ∧
        (if p.calRunning = false ∧ p.trimDue = true ∧ p.reported = .empty ∧ q.reported = .empty ∧
            (∃ since ∈ p.emptySince, since + 60000 ≤ s.dev.time.now) ∧ (∃ f ∈ q.filter, f < s.dev.params.occOff / 2) then
          q.trimDue = false ∧
          (∀ i : Cell, trims i → q.trims[i] =
            (if p.trims[i] < target i ∧ p.trims[i] < 64 then p.trims[i] + 1
             else if target i < p.trims[i] ∧ -64 < p.trims[i] then p.trims[i] - 1 else p.trims[i])) ∧
          (∀ i : Cell, ¬ trims i → q.trims[i] = p.trims[i]) ∧
          (q.hasFault .driftLimit = true ↔ p.hasFault .driftLimit = true ∨
            ∃ i : Cell, trims i ∧ ((64 < target i ∧ p.trims[i] = 64) ∨ (target i < -64 ∧ p.trims[i] = -64)))
        else q.trims = p.trims ∧ q.hasFault .driftLimit = p.hasFault .driftLimit)) ∧
  ∀ (s : State) (x : Exchange) (seat : Seat) (sent zeros : Vector Word 12) (n : Nat) (p : Place) (run : CalRun),
    s.dev.mapLaw → s.dev.lc.exchange = some x → x.cmd = .calStore seat sent → x.block = .cu →
    s.dev.places[n]? = some p → p.id.station = x.station → p.id.seat = seat → p.cal = .running run → run.newZeros = some zeros →
    (∀ (m : Moment) (ch : RxChar) (a : Answer), (x.phase = some .awaiting ∨ x.phase = some .receiving) →
      checkAnswer x.cmd (s.dev.station x.station).count (x.rx ++ [ch.data]) (charWellFormed ch) = .accepted a →
      ∃ (t : State) (q : Place), exec (.linkCharacterReceived m ch) s = .next t ∧ t.dev.places[n]? = some q ∧
        q.storedAs zeros (decide (a.result = .ack)) ∧ (a.boot = true → t.dev.restarted x.station true)) ∧
    (∀ (c : Instr) (m : Moment) (k : FailKind), s.dev.failureOf x c = some (m, k) → x.firstFailure ≠ none →
      ∃ (t : State) (q : Place), exec c s = .next t ∧ t.dev.places[n]? = some q ∧ q.storedAs zeros false)

/-! ## The laws of the device -/

/-- Every law of the device holds after reset. -/
def Obligations.TheLawsHoldAtReset : Prop :=
  State.reset.transferLaw ∧ State.reset.dev.publishedLaw ∧ State.reset.dev.stickyLaw ∧ State.reset.dev.failureRunLaw ∧
  State.reset.dev.vehicleLaw ∧ State.reset.dev.listLaw ∧ State.reset.dev.mapLaw ∧
  (∀ p ∈ State.reset.dev.places, p.loadLaw ∧ p.trimLaw) ∧ State.reset.dev.calLaw ∧ State.reset.dev.verdictLaw ∧
  State.reset.dev.reminderLaw ∧ State.reset.dev.params.law ∧ State.reset.dev.historyLaw ∧ State.reset.dev.waitingLaw

/-- The law of the transfer is kept by every step (R167). -/
def Obligations.EveryStepKeepsTheTransferLaw : Prop :=
  ∀ s t : State, s.transferLaw → step s = .next t → t.transferLaw

/-- The aggregates, the period in use, the attention priorities and the attention lines stand for the state after every step: the
chime demand is on exactly when a place is in CHIME, each line is asserted exactly while its priority is not 0 (R61, R153, R182). -/
def Obligations.EveryStepKeepsWhatIsPublished : Prop :=
  ∀ s t : State, s.dev.publishedLaw → step s = .next t →
    t.dev.publishedLaw ∧ (t.dev.agg.chime = true ↔ ∃ p ∈ t.dev.places, p.stage = .chime)

/-- Every sticky fault set goes on containing its live fault set (R174).
The failure run and LINK_FAULT go together, and so do the lapse and VEHICLE_LAPSED, after every step (R12, R139, R140). -/
def Obligations.EveryStepKeepsTheFaultLaws : Prop :=
  (∀ s t : State, s.dev.stickyLaw → step s = .next t → t.dev.stickyLaw) ∧
  (∀ s t : State, s.dev.failureRunLaw → s.dev.vehicleLaw → step s = .next t → t.dev.failureRunLaw ∧ t.dev.vehicleLaw)

/-- After every step the place list is the one the station table gives, at most 16 places in ascending order of station code and
seat index, with the station records, scan records, MAP_OVERFLOW and BAD_STATION in agreement (R22, R31, R38, R42 to R44, R57, R68). -/
def Obligations.EveryStepKeepsTheListOfTheStationTable : Prop :=
  ∀ s t : State, s.dev.mapLaw → s.dev.listLaw → step s = .next t → t.dev.mapLaw ∧ t.dev.listLaw

/-- Every filtered load stays within 0..65534, every concentration within 0..256, every trim within 64 codes (R87, R121). -/
def Obligations.EveryStepKeepsLoadsAndTrimsInRange : Prop :=
  ∀ s t : State, (∀ p ∈ s.dev.places, p.loadLaw ∧ p.trimLaw) → step s = .next t →
    ∀ p ∈ t.dev.places, p.loadLaw ∧ p.trimLaw

/-- At most two long calibrations run at once, with counts and sums in their ranges, after every step (R123, R124). -/
def Obligations.EveryStepKeepsTheCalibrationLaw : Prop :=
  ∀ s t : State, s.dev.listLaw → s.dev.calLaw → step s = .next t → t.dev.calLaw

/-- Outside FROZEN every verdict is that of R108 after every step; so ENABLE stands only in RUN on an accepted, fresh, fitted place
reported ADULT with no long calibration running. -/
def Obligations.EveryStepKeepsTheVerdictLaw : Prop :=
  ∀ s t : State, s.dev.verdictLaw → step s = .next t →
    t.dev.verdictLaw ∧
    (t.dev.mode ≠ .frozen → ∀ p ∈ t.dev.places, p.verdict = .enable →
      t.dev.mode = .run ∧ p.reported = .adult ∧ p.id ∈ t.dev.accepted ∧ p.fresh = true ∧
      p.policy.restraintFitted = true ∧ p.calRunning = false)

/-- In FROZEN every listed place keeps its class and verdict through every step, and a place first listed then is UNKNOWN and
NOT_FITTED (R108, R110, R113, R116). -/
def Obligations.FrozenHoldsEveryClassAndVerdict : Prop :=
  ∀ s t : State, step s = .next t → s.dev.mode = .frozen → t.dev.mode = .frozen →
    ∀ q ∈ t.dev.places,
      (∃ p ∈ s.dev.places, p.id = q.id ∧ p.reported = q.reported ∧ p.verdict = q.verdict) ∨
      ((∀ p ∈ s.dev.places, p.id ≠ q.id) ∧ q.reported = .unknown ∧ q.verdict = .notFitted)

/-- A place whose buckle reads LATCHED, whose class is EMPTY, whose reminder_enable is off, or that stands with the ignition OFF or
outside RUN is in stage OFF after every step (R147). -/
def Obligations.EveryStepKeepsTheReminderLaw : Prop :=
  ∀ s t : State, s.dev.reminderLaw → step s = .next t →
    t.dev.reminderLaw ∧
    ∀ p ∈ t.dev.places, (p.buckle = .latched ∨ p.reported = .empty ∨ p.policy.reminderEnable = false ∨
      t.dev.vehicle.ignition = false ∨ t.dev.mode ≠ .run) → p.stage = .off

/-- The parameters stay within their ranges and consistent, and the mode changes only by RESET, FREEZE, UNFREEZE and the completion
of start-up (R40, R102, R112, R118, R142, R169). -/
def Obligations.EveryStepKeepsParametersAndMode : Prop :=
  ∀ (c : Instr) (s t : State), s.dev.params.law → exec c s = .next t →
    t.dev.params.law ∧
    (t.dev.mode = s.dev.mode ∨ c = .reset ∨
      (s.dev.mode ≠ .frozen ∧ t.dev.mode = .frozen ∧ ∃ f : Frame, c = .freeze .a f) ∨
      (s.dev.mode = .frozen ∧ t.dev.mode = .run ∧ ∃ f : Frame, c = .unfreeze .a f) ∨
      (s.dev.mode = .startUp ∧ t.dev.mode = .run ∧ s.dev.startupDone = false ∧ t.dev.startupDone = true))

/-- The current generation moves exactly when the list changes as a sequence of identities, by one and from 255 to 1; after the
first list change it is never 0 again until a reset (R45, R47). -/
def Obligations.TheGenerationCountsListChanges : Prop :=
  ∀ (c : Instr) (s t : State), exec c s = .next t → c ≠ .reset →
    (t.dev.places.map Place.id = s.dev.places.map Place.id → t.dev.generation = s.dev.generation) ∧
    (t.dev.places.map Place.id ≠ s.dev.places.map Place.id →
      t.dev.generation = (if s.dev.generation = 255 then 1 else s.dev.generation + 1)) ∧
    (s.dev.generation ≠ 0 → t.dev.generation ≠ 0)

/-- At a list change (R45, R46, R155) a place that stays keeps its whole record, at its new number: it takes MAP at both ports exactly when
its number changes, and REMINDER exactly when the lamp-mask entry at its number changes; where start-up completes at the same event its
verdict and stage are evaluated beside. A place that is new holds the values of a joining place (R54, R72, R74, R85, R98, R110, R121, R123,
R134, R143), its reference zeros those that ST holds, and CELL_CAL live for an unusable cell; LINK_PATTERN and NODE_RESTART are live from
joining where its station carries them (the model's choice, assumption 17); each live fault stands in both sticky sets with FAULT, and MAP
is set at both ports (R46, R172, R174, R179). A place removed while its station stays listed with its seat hands its reference zeros back. -/
def Obligations.AListChangeMovesRecordsAndAddsFreshOnes : Prop :=
  ∀ (c : Instr) (s t : State), s.dev.mapLaw → s.dev.listLaw → exec c s = .next t → c ≠ .reset →
    t.dev.places.map Place.id ≠ s.dev.places.map Place.id →
    (∀ (n k : Nat) (p q : Place), s.dev.places[k]? = some p → t.dev.places[n]? = some q → p.id = q.id →
      q = { p with verdict := q.verdict, stage := q.stage, timer := q.timer, marks := q.marks } ∧
      (t.dev.mode = s.dev.mode →
        q = { p with marks := q.marks } ∧
        ∀ (port : Port) (kind : ChangeKind), q.marked port kind = (p.marked port kind || (decide (kind = .map) && decide (n ≠ k)) ||
          (decide (kind = .reminder) && (t.dev.agg.lampMask.getLsbD n != s.dev.agg.lampMask.getLsbD n))))) ∧
    (∀ (n : Nat) (q : Place), t.dev.places[n]? = some q → (∀ p ∈ s.dev.places, p.id ≠ q.id) →
      let station := t.dev.station q.id.station
      let values := station.valuesOf q.id.seat
      q = { id := q.id, total := none, atLeast := false, degraded := false, conc := 0, filter := none
            buckle := .none, leftAnchor := .none, rightAnchor := .none, partialCount := 0
            age := 65535, joinStamp := t.dev.stamp, fresh := false
            reported := .unknown, pendingClass := none, count := 0, verdict := .notFitted
            refZeros := values.zeros, trims := Vector.replicate 12 0, cal := .ended .none
            emptySince := none, nextTrim := none, trimDue := false
            stage := .off, timer := 0, fastened := false
            policy := { reminderEnable := true, childReminder := true, restraintFitted := false }
            live := q.live, sticky := { a := q.live, b := q.live }, marks := q.marks } ∧
      (∀ k : FaultKind, q.hasFault k = true ↔
        (k = .cellCal ∧ ∃ cell : Cell, values.unusable[cell] = true) ∨
        (k = .linkPattern ∧ station.state = .testing ∧ station.test = some (.patternOff false)) ∨
        (k = .nodeRestart ∧ station.restarted = true)) ∧
      ∀ (port : Port) (kind : ChangeKind), q.marked port kind = true ↔
        kind = .map ∨ (kind = .fault ∧ q.live ≠ 0) ∨
        (kind = .reminder ∧ t.dev.agg.lampMask.getLsbD n ≠ s.dev.agg.lampMask.getLsbD n)) ∧
    ∀ p ∈ s.dev.places, (∀ q ∈ t.dev.places, q.id ≠ p.id) →
      (t.dev.station p.id.station).listed = true → (t.dev.station p.id.station).serial = some p.id.serial →
      ∀ values ∈ (t.dev.station p.id.station).values[p.id.seat], values.zeros = p.refZeros
end

