-- ==== Sys2Proof/Laws/State.lean ====
section
/-! SUPPORT. What each update of the device leaves alone, one lemma for each field and update, so that no later proof unfolds a record
update. -/

namespace Sys2Proof.Machine

/-! ### setStation -/

@[simp] theorem Device.setStation_time (d : Device) (c : Code) (s : Station) : (d.setStation c s).time = d.time := rfl
@[simp] theorem Device.setStation_mode (d : Device) (c : Code) (s : Station) : (d.setStation c s).mode = d.mode := rfl
@[simp] theorem Device.setStation_startupDone (d : Device) (c : Code) (s : Station) : (d.setStation c s).startupDone = d.startupDone := rfl
@[simp] theorem Device.setStation_lc (d : Device) (c : Code) (s : Station) : (d.setStation c s).lc = d.lc := rfl
@[simp] theorem Device.setStation_ss (d : Device) (c : Code) (s : Station) : (d.setStation c s).ss = d.ss := rfl
@[simp] theorem Device.setStation_places (d : Device) (c : Code) (s : Station) : (d.setStation c s).places = d.places := rfl
@[simp] theorem Device.setStation_generation (d : Device) (c : Code) (s : Station) : (d.setStation c s).generation = d.generation := rfl
@[simp] theorem Device.setStation_accepted (d : Device) (c : Code) (s : Station) : (d.setStation c s).accepted = d.accepted := rfl
@[simp] theorem Device.setStation_acceptedGen (d : Device) (c : Code) (s : Station) : (d.setStation c s).acceptedGen = d.acceptedGen := rfl
@[simp] theorem Device.setStation_params (d : Device) (c : Code) (s : Station) : (d.setStation c s).params = d.params := rfl
@[simp] theorem Device.setStation_vehicle (d : Device) (c : Code) (s : Station) : (d.setStation c s).vehicle = d.vehicle := rfl
@[simp] theorem Device.setStation_agg (d : Device) (c : Code) (s : Station) : (d.setStation c s).agg = d.agg := rfl
@[simp] theorem Device.setStation_live (d : Device) (c : Code) (s : Station) : (d.setStation c s).live = d.live := rfl
@[simp] theorem Device.setStation_report (d : Device) (c : Code) (s : Station) : (d.setStation c s).report = d.report := rfl
@[simp] theorem Device.setStation_st_startup (d : Device) (c : Code) (s : Station) : (d.setStation c s).st.startup = d.st.startup := rfl
@[simp] theorem Device.setStation_st_lastProbe (d : Device) (c : Code) (s : Station) : (d.setStation c s).st.lastProbe = d.st.lastProbe := rfl
@[simp] theorem Device.setStation_st_nextProbe (d : Device) (c : Code) (s : Station) : (d.setStation c s).st.nextProbe = d.st.nextProbe := rfl

/-! ### setRecord -/

@[simp] theorem Device.setRecord_time (d : Device) (c : Code) (r : ScanRecord) : (d.setRecord c r).time = d.time := rfl
@[simp] theorem Device.setRecord_mode (d : Device) (c : Code) (r : ScanRecord) : (d.setRecord c r).mode = d.mode := rfl
@[simp] theorem Device.setRecord_startupDone (d : Device) (c : Code) (r : ScanRecord) : (d.setRecord c r).startupDone = d.startupDone := rfl
@[simp] theorem Device.setRecord_lc (d : Device) (c : Code) (r : ScanRecord) : (d.setRecord c r).lc = d.lc := rfl
@[simp] theorem Device.setRecord_st (d : Device) (c : Code) (r : ScanRecord) : (d.setRecord c r).st = d.st := rfl
@[simp] theorem Device.setRecord_places (d : Device) (c : Code) (r : ScanRecord) : (d.setRecord c r).places = d.places := rfl
@[simp] theorem Device.setRecord_generation (d : Device) (c : Code) (r : ScanRecord) : (d.setRecord c r).generation = d.generation := rfl
@[simp] theorem Device.setRecord_accepted (d : Device) (c : Code) (r : ScanRecord) : (d.setRecord c r).accepted = d.accepted := rfl
@[simp] theorem Device.setRecord_acceptedGen (d : Device) (c : Code) (r : ScanRecord) : (d.setRecord c r).acceptedGen = d.acceptedGen := rfl
@[simp] theorem Device.setRecord_params (d : Device) (c : Code) (r : ScanRecord) : (d.setRecord c r).params = d.params := rfl
@[simp] theorem Device.setRecord_vehicle (d : Device) (c : Code) (r : ScanRecord) : (d.setRecord c r).vehicle = d.vehicle := rfl
@[simp] theorem Device.setRecord_agg (d : Device) (c : Code) (r : ScanRecord) : (d.setRecord c r).agg = d.agg := rfl
@[simp] theorem Device.setRecord_live (d : Device) (c : Code) (r : ScanRecord) : (d.setRecord c r).live = d.live := rfl
@[simp] theorem Device.setRecord_report (d : Device) (c : Code) (r : ScanRecord) : (d.setRecord c r).report = d.report := rfl
@[simp] theorem Device.setRecord_ss_history (d : Device) (c : Code) (r : ScanRecord) : (d.setRecord c r).ss.history = d.ss.history := rfl
@[simp] theorem Device.setRecord_ss_waiting (d : Device) (c : Code) (r : ScanRecord) : (d.setRecord c r).ss.waiting = d.ss.waiting := rfl
@[simp] theorem Device.setRecord_ss_nextOrder (d : Device) (c : Code) (r : ScanRecord) : (d.setRecord c r).ss.nextOrder = d.ss.nextOrder := rfl
@[simp] theorem Device.setRecord_ss_period (d : Device) (c : Code) (r : ScanRecord) : (d.setRecord c r).ss.period = d.ss.period := rfl

/-! ### setScanStep -/

@[simp] theorem Device.setScanStep_time (d : Device) (c : Code) (step : ScanStep) : (d.setScanStep c step).time = d.time := rfl
@[simp] theorem Device.setScanStep_mode (d : Device) (c : Code) (step : ScanStep) : (d.setScanStep c step).mode = d.mode := rfl
@[simp] theorem Device.setScanStep_startupDone (d : Device) (c : Code) (step : ScanStep) : (d.setScanStep c step).startupDone = d.startupDone := rfl
@[simp] theorem Device.setScanStep_lc (d : Device) (c : Code) (step : ScanStep) : (d.setScanStep c step).lc = d.lc := rfl
@[simp] theorem Device.setScanStep_st (d : Device) (c : Code) (step : ScanStep) : (d.setScanStep c step).st = d.st := rfl
@[simp] theorem Device.setScanStep_places (d : Device) (c : Code) (step : ScanStep) : (d.setScanStep c step).places = d.places := rfl
@[simp] theorem Device.setScanStep_generation (d : Device) (c : Code) (step : ScanStep) : (d.setScanStep c step).generation = d.generation := rfl
@[simp] theorem Device.setScanStep_accepted (d : Device) (c : Code) (step : ScanStep) : (d.setScanStep c step).accepted = d.accepted := rfl
@[simp] theorem Device.setScanStep_acceptedGen (d : Device) (c : Code) (step : ScanStep) : (d.setScanStep c step).acceptedGen = d.acceptedGen := rfl
@[simp] theorem Device.setScanStep_params (d : Device) (c : Code) (step : ScanStep) : (d.setScanStep c step).params = d.params := rfl
@[simp] theorem Device.setScanStep_vehicle (d : Device) (c : Code) (step : ScanStep) : (d.setScanStep c step).vehicle = d.vehicle := rfl
@[simp] theorem Device.setScanStep_agg (d : Device) (c : Code) (step : ScanStep) : (d.setScanStep c step).agg = d.agg := rfl
@[simp] theorem Device.setScanStep_live (d : Device) (c : Code) (step : ScanStep) : (d.setScanStep c step).live = d.live := rfl
@[simp] theorem Device.setScanStep_report (d : Device) (c : Code) (step : ScanStep) : (d.setScanStep c step).report = d.report := rfl
@[simp] theorem Device.setScanStep_ss_history (d : Device) (c : Code) (step : ScanStep) : (d.setScanStep c step).ss.history = d.ss.history := rfl
@[simp] theorem Device.setScanStep_ss_waiting (d : Device) (c : Code) (step : ScanStep) : (d.setScanStep c step).ss.waiting = d.ss.waiting := rfl
@[simp] theorem Device.setScanStep_ss_nextOrder (d : Device) (c : Code) (step : ScanStep) : (d.setScanStep c step).ss.nextOrder = d.ss.nextOrder := rfl
@[simp] theorem Device.setScanStep_ss_period (d : Device) (c : Code) (step : ScanStep) : (d.setScanStep c step).ss.period = d.ss.period := rfl

/-! ### setExcitation -/

@[simp] theorem Device.setExcitation_time (d : Device) (c : Code) (e : Excitation) : (d.setExcitation c e).time = d.time := rfl
@[simp] theorem Device.setExcitation_mode (d : Device) (c : Code) (e : Excitation) : (d.setExcitation c e).mode = d.mode := rfl
@[simp] theorem Device.setExcitation_startupDone (d : Device) (c : Code) (e : Excitation) : (d.setExcitation c e).startupDone = d.startupDone := rfl
@[simp] theorem Device.setExcitation_lc (d : Device) (c : Code) (e : Excitation) : (d.setExcitation c e).lc = d.lc := rfl
@[simp] theorem Device.setExcitation_st (d : Device) (c : Code) (e : Excitation) : (d.setExcitation c e).st = d.st := rfl
@[simp] theorem Device.setExcitation_places (d : Device) (c : Code) (e : Excitation) : (d.setExcitation c e).places = d.places := rfl
@[simp] theorem Device.setExcitation_generation (d : Device) (c : Code) (e : Excitation) : (d.setExcitation c e).generation = d.generation := rfl
@[simp] theorem Device.setExcitation_accepted (d : Device) (c : Code) (e : Excitation) : (d.setExcitation c e).accepted = d.accepted := rfl
@[simp] theorem Device.setExcitation_acceptedGen (d : Device) (c : Code) (e : Excitation) : (d.setExcitation c e).acceptedGen = d.acceptedGen := rfl
@[simp] theorem Device.setExcitation_params (d : Device) (c : Code) (e : Excitation) : (d.setExcitation c e).params = d.params := rfl
@[simp] theorem Device.setExcitation_vehicle (d : Device) (c : Code) (e : Excitation) : (d.setExcitation c e).vehicle = d.vehicle := rfl
@[simp] theorem Device.setExcitation_agg (d : Device) (c : Code) (e : Excitation) : (d.setExcitation c e).agg = d.agg := rfl
@[simp] theorem Device.setExcitation_live (d : Device) (c : Code) (e : Excitation) : (d.setExcitation c e).live = d.live := rfl
@[simp] theorem Device.setExcitation_report (d : Device) (c : Code) (e : Excitation) : (d.setExcitation c e).report = d.report := rfl
@[simp] theorem Device.setExcitation_ss_history (d : Device) (c : Code) (e : Excitation) : (d.setExcitation c e).ss.history = d.ss.history := rfl
@[simp] theorem Device.setExcitation_ss_waiting (d : Device) (c : Code) (e : Excitation) : (d.setExcitation c e).ss.waiting = d.ss.waiting := rfl
@[simp] theorem Device.setExcitation_ss_nextOrder (d : Device) (c : Code) (e : Excitation) : (d.setExcitation c e).ss.nextOrder = d.ss.nextOrder := rfl
@[simp] theorem Device.setExcitation_ss_period (d : Device) (c : Code) (e : Excitation) : (d.setExcitation c e).ss.period = d.ss.period := rfl

/-! ### stopScanning -/

@[simp] theorem Device.stopScanning_time (d : Device) (c : Code) : (d.stopScanning c).time = d.time := rfl
@[simp] theorem Device.stopScanning_mode (d : Device) (c : Code) : (d.stopScanning c).mode = d.mode := rfl
@[simp] theorem Device.stopScanning_startupDone (d : Device) (c : Code) : (d.stopScanning c).startupDone = d.startupDone := rfl
@[simp] theorem Device.stopScanning_lc (d : Device) (c : Code) : (d.stopScanning c).lc = d.lc := rfl
@[simp] theorem Device.stopScanning_st (d : Device) (c : Code) : (d.stopScanning c).st = d.st := rfl
@[simp] theorem Device.stopScanning_places (d : Device) (c : Code) : (d.stopScanning c).places = d.places := rfl
@[simp] theorem Device.stopScanning_generation (d : Device) (c : Code) : (d.stopScanning c).generation = d.generation := rfl
@[simp] theorem Device.stopScanning_accepted (d : Device) (c : Code) : (d.stopScanning c).accepted = d.accepted := rfl
@[simp] theorem Device.stopScanning_acceptedGen (d : Device) (c : Code) : (d.stopScanning c).acceptedGen = d.acceptedGen := rfl
@[simp] theorem Device.stopScanning_params (d : Device) (c : Code) : (d.stopScanning c).params = d.params := rfl
@[simp] theorem Device.stopScanning_vehicle (d : Device) (c : Code) : (d.stopScanning c).vehicle = d.vehicle := rfl
@[simp] theorem Device.stopScanning_agg (d : Device) (c : Code) : (d.stopScanning c).agg = d.agg := rfl
@[simp] theorem Device.stopScanning_live (d : Device) (c : Code) : (d.stopScanning c).live = d.live := rfl
@[simp] theorem Device.stopScanning_report (d : Device) (c : Code) : (d.stopScanning c).report = d.report := rfl
@[simp] theorem Device.stopScanning_ss_history (d : Device) (c : Code) : (d.stopScanning c).ss.history = d.ss.history := rfl
@[simp] theorem Device.stopScanning_ss_waiting (d : Device) (c : Code) : (d.stopScanning c).ss.waiting = d.ss.waiting := rfl
@[simp] theorem Device.stopScanning_ss_nextOrder (d : Device) (c : Code) : (d.stopScanning c).ss.nextOrder = d.ss.nextOrder := rfl
@[simp] theorem Device.stopScanning_ss_period (d : Device) (c : Code) : (d.stopScanning c).ss.period = d.ss.period := rfl

/-! ### endScan -/

@[simp] theorem Device.endScan_time (d : Device) (c : Code) : (d.endScan c).time = d.time := rfl
@[simp] theorem Device.endScan_mode (d : Device) (c : Code) : (d.endScan c).mode = d.mode := rfl
@[simp] theorem Device.endScan_startupDone (d : Device) (c : Code) : (d.endScan c).startupDone = d.startupDone := rfl
@[simp] theorem Device.endScan_lc (d : Device) (c : Code) : (d.endScan c).lc = d.lc := rfl
@[simp] theorem Device.endScan_st (d : Device) (c : Code) : (d.endScan c).st = d.st := rfl
@[simp] theorem Device.endScan_places (d : Device) (c : Code) : (d.endScan c).places = d.places := rfl
@[simp] theorem Device.endScan_generation (d : Device) (c : Code) : (d.endScan c).generation = d.generation := rfl
@[simp] theorem Device.endScan_accepted (d : Device) (c : Code) : (d.endScan c).accepted = d.accepted := rfl
@[simp] theorem Device.endScan_acceptedGen (d : Device) (c : Code) : (d.endScan c).acceptedGen = d.acceptedGen := rfl
@[simp] theorem Device.endScan_params (d : Device) (c : Code) : (d.endScan c).params = d.params := rfl
@[simp] theorem Device.endScan_vehicle (d : Device) (c : Code) : (d.endScan c).vehicle = d.vehicle := rfl
@[simp] theorem Device.endScan_agg (d : Device) (c : Code) : (d.endScan c).agg = d.agg := rfl
@[simp] theorem Device.endScan_live (d : Device) (c : Code) : (d.endScan c).live = d.live := rfl
@[simp] theorem Device.endScan_report (d : Device) (c : Code) : (d.endScan c).report = d.report := rfl
@[simp] theorem Device.endScan_ss_history (d : Device) (c : Code) : (d.endScan c).ss.history = d.ss.history := rfl
@[simp] theorem Device.endScan_ss_waiting (d : Device) (c : Code) : (d.endScan c).ss.waiting = d.ss.waiting := rfl
@[simp] theorem Device.endScan_ss_nextOrder (d : Device) (c : Code) : (d.endScan c).ss.nextOrder = d.ss.nextOrder := rfl
@[simp] theorem Device.endScan_ss_period (d : Device) (c : Code) : (d.endScan c).ss.period = d.ss.period := rfl

/-! ### ask -/

@[simp] theorem Device.ask_time (d : Device) (c : Code) (cmd : LinkCommand) (b : Block) : (d.ask c cmd b).time = d.time := rfl
@[simp] theorem Device.ask_mode (d : Device) (c : Code) (cmd : LinkCommand) (b : Block) : (d.ask c cmd b).mode = d.mode := rfl
@[simp] theorem Device.ask_startupDone (d : Device) (c : Code) (cmd : LinkCommand) (b : Block) : (d.ask c cmd b).startupDone = d.startupDone := rfl
@[simp] theorem Device.ask_lc (d : Device) (c : Code) (cmd : LinkCommand) (b : Block) : (d.ask c cmd b).lc = d.lc := rfl
@[simp] theorem Device.ask_st (d : Device) (c : Code) (cmd : LinkCommand) (b : Block) : (d.ask c cmd b).st = d.st := rfl
@[simp] theorem Device.ask_places (d : Device) (c : Code) (cmd : LinkCommand) (b : Block) : (d.ask c cmd b).places = d.places := rfl
@[simp] theorem Device.ask_generation (d : Device) (c : Code) (cmd : LinkCommand) (b : Block) : (d.ask c cmd b).generation = d.generation := rfl
@[simp] theorem Device.ask_accepted (d : Device) (c : Code) (cmd : LinkCommand) (b : Block) : (d.ask c cmd b).accepted = d.accepted := rfl
@[simp] theorem Device.ask_acceptedGen (d : Device) (c : Code) (cmd : LinkCommand) (b : Block) : (d.ask c cmd b).acceptedGen = d.acceptedGen := rfl
@[simp] theorem Device.ask_params (d : Device) (c : Code) (cmd : LinkCommand) (b : Block) : (d.ask c cmd b).params = d.params := rfl
@[simp] theorem Device.ask_vehicle (d : Device) (c : Code) (cmd : LinkCommand) (b : Block) : (d.ask c cmd b).vehicle = d.vehicle := rfl
@[simp] theorem Device.ask_agg (d : Device) (c : Code) (cmd : LinkCommand) (b : Block) : (d.ask c cmd b).agg = d.agg := rfl
@[simp] theorem Device.ask_live (d : Device) (c : Code) (cmd : LinkCommand) (b : Block) : (d.ask c cmd b).live = d.live := rfl
@[simp] theorem Device.ask_report (d : Device) (c : Code) (cmd : LinkCommand) (b : Block) : (d.ask c cmd b).report = d.report := rfl
@[simp] theorem Device.ask_ss_records (d : Device) (c : Code) (cmd : LinkCommand) (b : Block) : (d.ask c cmd b).ss.records = d.ss.records := rfl
@[simp] theorem Device.ask_ss_history (d : Device) (c : Code) (cmd : LinkCommand) (b : Block) : (d.ask c cmd b).ss.history = d.ss.history := rfl
@[simp] theorem Device.ask_ss_nextOrder (d : Device) (c : Code) (cmd : LinkCommand) (b : Block) : (d.ask c cmd b).ss.nextOrder = d.ss.nextOrder := rfl
@[simp] theorem Device.ask_ss_period (d : Device) (c : Code) (cmd : LinkCommand) (b : Block) : (d.ask c cmd b).ss.period = d.ss.period := rfl

/-! ### withdraw -/

@[simp] theorem Device.withdraw_time (d : Device) (c : Code) : (d.withdraw c).time = d.time := rfl
@[simp] theorem Device.withdraw_mode (d : Device) (c : Code) : (d.withdraw c).mode = d.mode := rfl
@[simp] theorem Device.withdraw_startupDone (d : Device) (c : Code) : (d.withdraw c).startupDone = d.startupDone := rfl
@[simp] theorem Device.withdraw_lc (d : Device) (c : Code) : (d.withdraw c).lc = d.lc := rfl
@[simp] theorem Device.withdraw_st (d : Device) (c : Code) : (d.withdraw c).st = d.st := rfl
@[simp] theorem Device.withdraw_places (d : Device) (c : Code) : (d.withdraw c).places = d.places := rfl
@[simp] theorem Device.withdraw_generation (d : Device) (c : Code) : (d.withdraw c).generation = d.generation := rfl
@[simp] theorem Device.withdraw_accepted (d : Device) (c : Code) : (d.withdraw c).accepted = d.accepted := rfl
@[simp] theorem Device.withdraw_acceptedGen (d : Device) (c : Code) : (d.withdraw c).acceptedGen = d.acceptedGen := rfl
@[simp] theorem Device.withdraw_params (d : Device) (c : Code) : (d.withdraw c).params = d.params := rfl
@[simp] theorem Device.withdraw_vehicle (d : Device) (c : Code) : (d.withdraw c).vehicle = d.vehicle := rfl
@[simp] theorem Device.withdraw_agg (d : Device) (c : Code) : (d.withdraw c).agg = d.agg := rfl
@[simp] theorem Device.withdraw_live (d : Device) (c : Code) : (d.withdraw c).live = d.live := rfl
@[simp] theorem Device.withdraw_report (d : Device) (c : Code) : (d.withdraw c).report = d.report := rfl
@[simp] theorem Device.withdraw_ss_records (d : Device) (c : Code) : (d.withdraw c).ss.records = d.ss.records := rfl
@[simp] theorem Device.withdraw_ss_history (d : Device) (c : Code) : (d.withdraw c).ss.history = d.ss.history := rfl
@[simp] theorem Device.withdraw_ss_nextOrder (d : Device) (c : Code) : (d.withdraw c).ss.nextOrder = d.ss.nextOrder := rfl
@[simp] theorem Device.withdraw_ss_period (d : Device) (c : Code) : (d.withdraw c).ss.period = d.ss.period := rfl

/-! ### pruneStores -/

@[simp] theorem Device.pruneStores_time (d : Device) : (d.pruneStores).time = d.time := rfl
@[simp] theorem Device.pruneStores_mode (d : Device) : (d.pruneStores).mode = d.mode := rfl
@[simp] theorem Device.pruneStores_startupDone (d : Device) : (d.pruneStores).startupDone = d.startupDone := rfl
@[simp] theorem Device.pruneStores_lc (d : Device) : (d.pruneStores).lc = d.lc := rfl
@[simp] theorem Device.pruneStores_st (d : Device) : (d.pruneStores).st = d.st := rfl
@[simp] theorem Device.pruneStores_places (d : Device) : (d.pruneStores).places = d.places := rfl
@[simp] theorem Device.pruneStores_generation (d : Device) : (d.pruneStores).generation = d.generation := rfl
@[simp] theorem Device.pruneStores_accepted (d : Device) : (d.pruneStores).accepted = d.accepted := rfl
@[simp] theorem Device.pruneStores_acceptedGen (d : Device) : (d.pruneStores).acceptedGen = d.acceptedGen := rfl
@[simp] theorem Device.pruneStores_params (d : Device) : (d.pruneStores).params = d.params := rfl
@[simp] theorem Device.pruneStores_vehicle (d : Device) : (d.pruneStores).vehicle = d.vehicle := rfl
@[simp] theorem Device.pruneStores_agg (d : Device) : (d.pruneStores).agg = d.agg := rfl
@[simp] theorem Device.pruneStores_live (d : Device) : (d.pruneStores).live = d.live := rfl
@[simp] theorem Device.pruneStores_report (d : Device) : (d.pruneStores).report = d.report := rfl
@[simp] theorem Device.pruneStores_ss_records (d : Device) : (d.pruneStores).ss.records = d.ss.records := rfl
@[simp] theorem Device.pruneStores_ss_history (d : Device) : (d.pruneStores).ss.history = d.ss.history := rfl
@[simp] theorem Device.pruneStores_ss_nextOrder (d : Device) : (d.pruneStores).ss.nextOrder = d.ss.nextOrder := rfl
@[simp] theorem Device.pruneStores_ss_period (d : Device) : (d.pruneStores).ss.period = d.ss.period := rfl

/-! ### noteExcite -/

@[simp] theorem Device.noteExcite_time (d : Device) : (d.noteExcite).time = d.time := rfl
@[simp] theorem Device.noteExcite_mode (d : Device) : (d.noteExcite).mode = d.mode := rfl
@[simp] theorem Device.noteExcite_startupDone (d : Device) : (d.noteExcite).startupDone = d.startupDone := rfl
@[simp] theorem Device.noteExcite_lc (d : Device) : (d.noteExcite).lc = d.lc := rfl
@[simp] theorem Device.noteExcite_st (d : Device) : (d.noteExcite).st = d.st := rfl
@[simp] theorem Device.noteExcite_places (d : Device) : (d.noteExcite).places = d.places := rfl
@[simp] theorem Device.noteExcite_generation (d : Device) : (d.noteExcite).generation = d.generation := rfl
@[simp] theorem Device.noteExcite_accepted (d : Device) : (d.noteExcite).accepted = d.accepted := rfl
@[simp] theorem Device.noteExcite_acceptedGen (d : Device) : (d.noteExcite).acceptedGen = d.acceptedGen := rfl
@[simp] theorem Device.noteExcite_params (d : Device) : (d.noteExcite).params = d.params := rfl
@[simp] theorem Device.noteExcite_vehicle (d : Device) : (d.noteExcite).vehicle = d.vehicle := rfl
@[simp] theorem Device.noteExcite_agg (d : Device) : (d.noteExcite).agg = d.agg := rfl
@[simp] theorem Device.noteExcite_live (d : Device) : (d.noteExcite).live = d.live := rfl
@[simp] theorem Device.noteExcite_report (d : Device) : (d.noteExcite).report = d.report := rfl
@[simp] theorem Device.noteExcite_ss_records (d : Device) : (d.noteExcite).ss.records = d.ss.records := rfl
@[simp] theorem Device.noteExcite_ss_waiting (d : Device) : (d.noteExcite).ss.waiting = d.ss.waiting := rfl
@[simp] theorem Device.noteExcite_ss_nextOrder (d : Device) : (d.noteExcite).ss.nextOrder = d.ss.nextOrder := rfl
@[simp] theorem Device.noteExcite_ss_period (d : Device) : (d.noteExcite).ss.period = d.ss.period := rfl

/-! ### mapPlaces -/

@[simp] theorem Device.mapPlaces_time (d : Device) (f : Place → Place) : (d.mapPlaces f).time = d.time := rfl
@[simp] theorem Device.mapPlaces_mode (d : Device) (f : Place → Place) : (d.mapPlaces f).mode = d.mode := rfl
@[simp] theorem Device.mapPlaces_startupDone (d : Device) (f : Place → Place) : (d.mapPlaces f).startupDone = d.startupDone := rfl
@[simp] theorem Device.mapPlaces_lc (d : Device) (f : Place → Place) : (d.mapPlaces f).lc = d.lc := rfl
@[simp] theorem Device.mapPlaces_st (d : Device) (f : Place → Place) : (d.mapPlaces f).st = d.st := rfl
@[simp] theorem Device.mapPlaces_ss (d : Device) (f : Place → Place) : (d.mapPlaces f).ss = d.ss := rfl
@[simp] theorem Device.mapPlaces_generation (d : Device) (f : Place → Place) : (d.mapPlaces f).generation = d.generation := rfl
@[simp] theorem Device.mapPlaces_accepted (d : Device) (f : Place → Place) : (d.mapPlaces f).accepted = d.accepted := rfl
@[simp] theorem Device.mapPlaces_acceptedGen (d : Device) (f : Place → Place) : (d.mapPlaces f).acceptedGen = d.acceptedGen := rfl
@[simp] theorem Device.mapPlaces_params (d : Device) (f : Place → Place) : (d.mapPlaces f).params = d.params := rfl
@[simp] theorem Device.mapPlaces_vehicle (d : Device) (f : Place → Place) : (d.mapPlaces f).vehicle = d.vehicle := rfl
@[simp] theorem Device.mapPlaces_agg (d : Device) (f : Place → Place) : (d.mapPlaces f).agg = d.agg := rfl
@[simp] theorem Device.mapPlaces_live (d : Device) (f : Place → Place) : (d.mapPlaces f).live = d.live := rfl
@[simp] theorem Device.mapPlaces_report (d : Device) (f : Place → Place) : (d.mapPlaces f).report = d.report := rfl

/-! ### modifyPlace -/

@[simp] theorem Device.modifyPlace_time (d : Device) (n : Nat) (f : Place → Place) : (d.modifyPlace n f).time = d.time := rfl
@[simp] theorem Device.modifyPlace_mode (d : Device) (n : Nat) (f : Place → Place) : (d.modifyPlace n f).mode = d.mode := rfl
@[simp] theorem Device.modifyPlace_startupDone (d : Device) (n : Nat) (f : Place → Place) : (d.modifyPlace n f).startupDone = d.startupDone := rfl
@[simp] theorem Device.modifyPlace_lc (d : Device) (n : Nat) (f : Place → Place) : (d.modifyPlace n f).lc = d.lc := rfl
@[simp] theorem Device.modifyPlace_st (d : Device) (n : Nat) (f : Place → Place) : (d.modifyPlace n f).st = d.st := rfl
@[simp] theorem Device.modifyPlace_ss (d : Device) (n : Nat) (f : Place → Place) : (d.modifyPlace n f).ss = d.ss := rfl
@[simp] theorem Device.modifyPlace_generation (d : Device) (n : Nat) (f : Place → Place) : (d.modifyPlace n f).generation = d.generation := rfl
@[simp] theorem Device.modifyPlace_accepted (d : Device) (n : Nat) (f : Place → Place) : (d.modifyPlace n f).accepted = d.accepted := rfl
@[simp] theorem Device.modifyPlace_acceptedGen (d : Device) (n : Nat) (f : Place → Place) : (d.modifyPlace n f).acceptedGen = d.acceptedGen := rfl
@[simp] theorem Device.modifyPlace_params (d : Device) (n : Nat) (f : Place → Place) : (d.modifyPlace n f).params = d.params := rfl
@[simp] theorem Device.modifyPlace_vehicle (d : Device) (n : Nat) (f : Place → Place) : (d.modifyPlace n f).vehicle = d.vehicle := rfl
@[simp] theorem Device.modifyPlace_agg (d : Device) (n : Nat) (f : Place → Place) : (d.modifyPlace n f).agg = d.agg := rfl
@[simp] theorem Device.modifyPlace_live (d : Device) (n : Nat) (f : Place → Place) : (d.modifyPlace n f).live = d.live := rfl
@[simp] theorem Device.modifyPlace_report (d : Device) (n : Nat) (f : Place → Place) : (d.modifyPlace n f).report = d.report := rfl

/-! ### launch -/

@[simp] theorem Device.launch_time (d : Device) (c : Code) (cmd : LinkCommand) (b : Block) : (d.launch c cmd b).time = d.time := rfl
@[simp] theorem Device.launch_mode (d : Device) (c : Code) (cmd : LinkCommand) (b : Block) : (d.launch c cmd b).mode = d.mode := rfl
@[simp] theorem Device.launch_startupDone (d : Device) (c : Code) (cmd : LinkCommand) (b : Block) : (d.launch c cmd b).startupDone = d.startupDone := rfl
@[simp] theorem Device.launch_st (d : Device) (c : Code) (cmd : LinkCommand) (b : Block) : (d.launch c cmd b).st = d.st := rfl
@[simp] theorem Device.launch_ss (d : Device) (c : Code) (cmd : LinkCommand) (b : Block) : (d.launch c cmd b).ss = d.ss := rfl
@[simp] theorem Device.launch_places (d : Device) (c : Code) (cmd : LinkCommand) (b : Block) : (d.launch c cmd b).places = d.places := rfl
@[simp] theorem Device.launch_generation (d : Device) (c : Code) (cmd : LinkCommand) (b : Block) : (d.launch c cmd b).generation = d.generation := rfl
@[simp] theorem Device.launch_accepted (d : Device) (c : Code) (cmd : LinkCommand) (b : Block) : (d.launch c cmd b).accepted = d.accepted := rfl
@[simp] theorem Device.launch_acceptedGen (d : Device) (c : Code) (cmd : LinkCommand) (b : Block) : (d.launch c cmd b).acceptedGen = d.acceptedGen := rfl
@[simp] theorem Device.launch_params (d : Device) (c : Code) (cmd : LinkCommand) (b : Block) : (d.launch c cmd b).params = d.params := rfl
@[simp] theorem Device.launch_vehicle (d : Device) (c : Code) (cmd : LinkCommand) (b : Block) : (d.launch c cmd b).vehicle = d.vehicle := rfl
@[simp] theorem Device.launch_agg (d : Device) (c : Code) (cmd : LinkCommand) (b : Block) : (d.launch c cmd b).agg = d.agg := rfl
@[simp] theorem Device.launch_live (d : Device) (c : Code) (cmd : LinkCommand) (b : Block) : (d.launch c cmd b).live = d.live := rfl
@[simp] theorem Device.launch_report (d : Device) (c : Code) (cmd : LinkCommand) (b : Block) : (d.launch c cmd b).report = d.report := rfl

/-! ### finish -/

@[simp] theorem Device.finish_time (d : Device) : (d.finish).time = d.time := rfl
@[simp] theorem Device.finish_mode (d : Device) : (d.finish).mode = d.mode := rfl
@[simp] theorem Device.finish_startupDone (d : Device) : (d.finish).startupDone = d.startupDone := rfl
@[simp] theorem Device.finish_lc (d : Device) : (d.finish).lc = d.lc := rfl
@[simp] theorem Device.finish_st (d : Device) : (d.finish).st = d.st := rfl
@[simp] theorem Device.finish_places (d : Device) : (d.finish).places = d.places := rfl
@[simp] theorem Device.finish_generation (d : Device) : (d.finish).generation = d.generation := rfl
@[simp] theorem Device.finish_accepted (d : Device) : (d.finish).accepted = d.accepted := rfl
@[simp] theorem Device.finish_acceptedGen (d : Device) : (d.finish).acceptedGen = d.acceptedGen := rfl
@[simp] theorem Device.finish_params (d : Device) : (d.finish).params = d.params := rfl
@[simp] theorem Device.finish_vehicle (d : Device) : (d.finish).vehicle = d.vehicle := rfl
@[simp] theorem Device.finish_live (d : Device) : (d.finish).live = d.live := rfl
@[simp] theorem Device.finish_ss_records (d : Device) : (d.finish).ss.records = d.ss.records := rfl
@[simp] theorem Device.finish_ss_history (d : Device) : (d.finish).ss.history = d.ss.history := rfl
@[simp] theorem Device.finish_ss_waiting (d : Device) : (d.finish).ss.waiting = d.ss.waiting := rfl
@[simp] theorem Device.finish_ss_nextOrder (d : Device) : (d.finish).ss.nextOrder = d.ss.nextOrder := rfl

/-! ### atMoment -/

@[simp] theorem Device.atMoment_mode (d : Device) (m : Moment) : (d.atMoment m).mode = d.mode := by cases m <;> rfl
@[simp] theorem Device.atMoment_startupDone (d : Device) (m : Moment) : (d.atMoment m).startupDone = d.startupDone := by cases m <;> rfl
@[simp] theorem Device.atMoment_lc (d : Device) (m : Moment) : (d.atMoment m).lc = d.lc := by cases m <;> rfl
@[simp] theorem Device.atMoment_st (d : Device) (m : Moment) : (d.atMoment m).st = d.st := by cases m <;> rfl
@[simp] theorem Device.atMoment_ss (d : Device) (m : Moment) : (d.atMoment m).ss = d.ss := by cases m <;> rfl
@[simp] theorem Device.atMoment_places (d : Device) (m : Moment) : (d.atMoment m).places = d.places := by cases m <;> rfl
@[simp] theorem Device.atMoment_generation (d : Device) (m : Moment) : (d.atMoment m).generation = d.generation := by cases m <;> rfl
@[simp] theorem Device.atMoment_accepted (d : Device) (m : Moment) : (d.atMoment m).accepted = d.accepted := by cases m <;> rfl
@[simp] theorem Device.atMoment_acceptedGen (d : Device) (m : Moment) : (d.atMoment m).acceptedGen = d.acceptedGen := by cases m <;> rfl
@[simp] theorem Device.atMoment_params (d : Device) (m : Moment) : (d.atMoment m).params = d.params := by cases m <;> rfl
@[simp] theorem Device.atMoment_vehicle (d : Device) (m : Moment) : (d.atMoment m).vehicle = d.vehicle := by cases m <;> rfl
@[simp] theorem Device.atMoment_agg (d : Device) (m : Moment) : (d.atMoment m).agg = d.agg := by cases m <;> rfl
@[simp] theorem Device.atMoment_live (d : Device) (m : Moment) : (d.atMoment m).live = d.live := by cases m <;> rfl
@[simp] theorem Device.atMoment_report (d : Device) (m : Moment) : (d.atMoment m).report = d.report := by cases m <;> rfl

/-! ### setGlobal -/

@[simp] theorem Device.setGlobal_time (d : Device) (k : GlobalFault) (on : Bool) : (d.setGlobal k on).time = d.time := by
  unfold Device.setGlobal; repeat' split
  all_goals rfl
@[simp] theorem Device.setGlobal_mode (d : Device) (k : GlobalFault) (on : Bool) : (d.setGlobal k on).mode = d.mode := by
  unfold Device.setGlobal; repeat' split
  all_goals rfl
@[simp] theorem Device.setGlobal_startupDone (d : Device) (k : GlobalFault) (on : Bool) : (d.setGlobal k on).startupDone = d.startupDone := by
  unfold Device.setGlobal; repeat' split
  all_goals rfl
@[simp] theorem Device.setGlobal_lc (d : Device) (k : GlobalFault) (on : Bool) : (d.setGlobal k on).lc = d.lc := by
  unfold Device.setGlobal; repeat' split
  all_goals rfl
@[simp] theorem Device.setGlobal_st (d : Device) (k : GlobalFault) (on : Bool) : (d.setGlobal k on).st = d.st := by
  unfold Device.setGlobal; repeat' split
  all_goals rfl
@[simp] theorem Device.setGlobal_ss (d : Device) (k : GlobalFault) (on : Bool) : (d.setGlobal k on).ss = d.ss := by
  unfold Device.setGlobal; repeat' split
  all_goals rfl
@[simp] theorem Device.setGlobal_places (d : Device) (k : GlobalFault) (on : Bool) : (d.setGlobal k on).places = d.places := by
  unfold Device.setGlobal; repeat' split
  all_goals rfl
@[simp] theorem Device.setGlobal_generation (d : Device) (k : GlobalFault) (on : Bool) : (d.setGlobal k on).generation = d.generation := by
  unfold Device.setGlobal; repeat' split
  all_goals rfl
@[simp] theorem Device.setGlobal_accepted (d : Device) (k : GlobalFault) (on : Bool) : (d.setGlobal k on).accepted = d.accepted := by
  unfold Device.setGlobal; repeat' split
  all_goals rfl
@[simp] theorem Device.setGlobal_acceptedGen (d : Device) (k : GlobalFault) (on : Bool) : (d.setGlobal k on).acceptedGen = d.acceptedGen := by
  unfold Device.setGlobal; repeat' split
  all_goals rfl
@[simp] theorem Device.setGlobal_params (d : Device) (k : GlobalFault) (on : Bool) : (d.setGlobal k on).params = d.params := by
  unfold Device.setGlobal; repeat' split
  all_goals rfl
@[simp] theorem Device.setGlobal_vehicle (d : Device) (k : GlobalFault) (on : Bool) : (d.setGlobal k on).vehicle = d.vehicle := by
  unfold Device.setGlobal; repeat' split
  all_goals rfl
@[simp] theorem Device.setGlobal_agg (d : Device) (k : GlobalFault) (on : Bool) : (d.setGlobal k on).agg = d.agg := by
  unfold Device.setGlobal; repeat' split
  all_goals rfl

/-! ### Station and scan records -/

@[simp] theorem Device.setStation_station (d : Device) (c k : Code) (s : Station) :
    (d.setStation c s).station k = if k = c then s else d.station k := by
  by_cases h : k = c
  · subst h; simp [Device.station, Device.setStation]
  · have : c.val ≠ k.val := fun e => h (Fin.ext e.symm)
    simp [Device.station, Device.setStation, h, this]

@[simp] theorem Device.setStation_record (d : Device) (c k : Code) (s : Station) :
    (d.setStation c s).record k = d.record k := rfl

@[simp] theorem Device.setRecord_record (d : Device) (c k : Code) (r : ScanRecord) :
    (d.setRecord c r).record k = if k = c then r else d.record k := by
  by_cases h : k = c
  · subst h; simp [Device.record, Device.setRecord]
  · have : c.val ≠ k.val := fun e => h (Fin.ext e.symm)
    simp [Device.record, Device.setRecord, h, this]

@[simp] theorem Device.setRecord_station (d : Device) (c k : Code) (r : ScanRecord) :
    (d.setRecord c r).station k = d.station k := rfl

@[simp] theorem Device.setScanStep_station (d : Device) (c : Code) (step : ScanStep) (k : Code) : (d.setScanStep c step).station k = d.station k := rfl
@[simp] theorem Device.setExcitation_station (d : Device) (c : Code) (e : Excitation) (k : Code) : (d.setExcitation c e).station k = d.station k := rfl
@[simp] theorem Device.stopScanning_station (d : Device) (c : Code) (k : Code) : (d.stopScanning c).station k = d.station k := rfl
@[simp] theorem Device.endScan_station (d : Device) (c : Code) (k : Code) : (d.endScan c).station k = d.station k := rfl
@[simp] theorem Device.ask_station (d : Device) (c : Code) (cmd : LinkCommand) (b : Block) (k : Code) : (d.ask c cmd b).station k = d.station k := rfl
@[simp] theorem Device.ask_record (d : Device) (c : Code) (cmd : LinkCommand) (b : Block) (k : Code) : (d.ask c cmd b).record k = d.record k := rfl
@[simp] theorem Device.withdraw_station (d : Device) (c : Code) (k : Code) : (d.withdraw c).station k = d.station k := rfl
@[simp] theorem Device.withdraw_record (d : Device) (c : Code) (k : Code) : (d.withdraw c).record k = d.record k := rfl
@[simp] theorem Device.pruneStores_station (d : Device) (k : Code) : (d.pruneStores).station k = d.station k := rfl
@[simp] theorem Device.pruneStores_record (d : Device) (k : Code) : (d.pruneStores).record k = d.record k := rfl
@[simp] theorem Device.noteExcite_station (d : Device) (k : Code) : (d.noteExcite).station k = d.station k := rfl
@[simp] theorem Device.noteExcite_record (d : Device) (k : Code) : (d.noteExcite).record k = d.record k := rfl
@[simp] theorem Device.mapPlaces_station (d : Device) (f : Place → Place) (k : Code) : (d.mapPlaces f).station k = d.station k := rfl
@[simp] theorem Device.mapPlaces_record (d : Device) (f : Place → Place) (k : Code) : (d.mapPlaces f).record k = d.record k := rfl
@[simp] theorem Device.modifyPlace_station (d : Device) (n : Nat) (f : Place → Place) (k : Code) : (d.modifyPlace n f).station k = d.station k := rfl
@[simp] theorem Device.modifyPlace_record (d : Device) (n : Nat) (f : Place → Place) (k : Code) : (d.modifyPlace n f).record k = d.record k := rfl
@[simp] theorem Device.launch_station (d : Device) (c : Code) (cmd : LinkCommand) (b : Block) (k : Code) : (d.launch c cmd b).station k = d.station k := rfl
@[simp] theorem Device.launch_record (d : Device) (c : Code) (cmd : LinkCommand) (b : Block) (k : Code) : (d.launch c cmd b).record k = d.record k := rfl
@[simp] theorem Device.finish_station (d : Device) (k : Code) : (d.finish).station k = d.station k := rfl
@[simp] theorem Device.finish_record (d : Device) (k : Code) : (d.finish).record k = d.record k := rfl
@[simp] theorem Device.atMoment_station (d : Device) (m : Moment) (k : Code) : (d.atMoment m).station k = d.station k := by
  cases m <;> rfl
@[simp] theorem Device.atMoment_record (d : Device) (m : Moment) (k : Code) : (d.atMoment m).record k = d.record k := by
  cases m <;> rfl
@[simp] theorem Device.setGlobal_station (d : Device) (g : GlobalFault) (on : Bool) (k : Code) :
    (d.setGlobal g on).station k = d.station k := by simp [Device.station]
@[simp] theorem Device.setGlobal_record (d : Device) (g : GlobalFault) (on : Bool) (k : Code) :
    (d.setGlobal g on).record k = d.record k := by simp [Device.record]

/-! ### What an update puts -/

@[simp] theorem Device.mapPlaces_places (d : Device) (f : Place → Place) : (d.mapPlaces f).places = d.places.map f := rfl
@[simp] theorem Device.modifyPlace_places (d : Device) (n : Nat) (f : Place → Place) :
    (d.modifyPlace n f).places = d.places.modify n f := rfl
@[simp] theorem Device.ask_ss_waiting (d : Device) (c : Code) (cmd : LinkCommand) (b : Block) :
    (d.ask c cmd b).ss.waiting = d.ss.waiting ++ [{ station := c, cmd := cmd, block := b }] := rfl
@[simp] theorem Device.noteExcite_ss_history (d : Device) : d.noteExcite.ss.history = pushStamp d.ss.history d.stamp := rfl
@[simp] theorem Device.stopScanning_record (d : Device) (c k : Code) :
    (d.stopScanning c).record k = if k = c then { d.record c with due := none, scan := none } else d.record k := by
  simp [Device.stopScanning]
@[simp] theorem Device.endScan_record (d : Device) (c k : Code) :
    (d.endScan c).record k = if k = c then { d.record c with scan := none } else d.record k := by
  simp [Device.endScan]
@[simp] theorem Device.setScanStep_record (d : Device) (c k : Code) (step : ScanStep) :
    (d.setScanStep c step).record k =
      if k = c then { d.record c with scan := (d.record c).scan.map (fun sc => { sc with step := step }) } else d.record k := by
  simp [Device.setScanStep]

/-! ### The ports' copies -/

@[simp] theorem Both.get_set_same {α : Type} (x : Both α) (p : Port) (v : α) : (x.set p v).get p = v := by cases p <;> rfl
theorem Both.get_set_ne {α : Type} (x : Both α) (p q : Port) (v : α) (h : q ≠ p) : (x.set p v).get q = x.get q := by
  cases p <;> cases q <;> first | rfl | exact absurd rfl h
@[simp] theorem Both.get_map {α : Type} (f : α → α) (x : Both α) (p : Port) : (x.map f).get p = f (x.get p) := by cases p <;> rfl

end Sys2Proof.Machine
end

