-- ==== Sys2Proof/Laws/Ops.lean ====
section
/-! SUPPORT. What each shared operation can do, said once for the proofs that cite it: faults and marks of a place, global faults, the
values recomputed at every event, the taking of a request, the filling of the place list. -/

namespace Sys2Proof.Machine

/-! ## Sets held as bits -/

theorem withBit_bit {n : Nat} (s : BitVec n) (i j : Nat) : (withBit s i).getLsbD j = (s.getLsbD j || (decide (j = i) && decide (i < n))) := by
  simp only [withBit, BitVec.getLsbD_or, BitVec.getLsbD_twoPow]
  by_cases h : i = j <;> simp [h, eq_comm]

theorem withoutBit_bit {n : Nat} (s : BitVec n) (i j : Nat) : (withoutBit s i).getLsbD j = (s.getLsbD j && !decide (j = i)) := by
  simp only [withoutBit, BitVec.getLsbD_and, BitVec.getLsbD_not, BitVec.getLsbD_twoPow]
  by_cases h : j < n
  · by_cases e : i = j
    · subst e; simp [h]
    · have e' : ¬ j = i := fun x => e x.symm
      simp [h, e, e']
  · have : s.getLsbD j = false := BitVec.getLsbD_of_ge s j (by omega)
    simp [this]

/-! ## Marks of a place -/

theorem ChangeKind.bit_lt (k : ChangeKind) : k.bit < 7 := by cases k <;> decide
theorem ChangeKind.bit_inj {j k : ChangeKind} (h : j.bit = k.bit) : j = k := by
  cases j <;> cases k <;> first | rfl | exact absurd h (by decide)
theorem FaultKind.bit_lt (k : FaultKind) : k.bit < 12 := by cases k <;> decide
theorem FaultKind.bit_inj {j k : FaultKind} (h : j.bit = k.bit) : j = k := by
  cases j <;> cases k <;> first | rfl | exact absurd h (by decide)
theorem GlobalFault.bit_lt (k : GlobalFault) : k.bit < 4 := by cases k <;> decide
theorem GlobalFault.bit_inj {j k : GlobalFault} (h : j.bit = k.bit) : j = k := by
  cases j <;> cases k <;> first | rfl | exact absurd h (by decide)

/-- Marking a kind makes it pending at both ports and leaves every other kind as it is. -/
theorem Place.marked_mark (p : Place) (port : Port) (j k : ChangeKind) :
    (p.mark k).marked port j = (p.marked port j || decide (j = k)) := by
  have hk := ChangeKind.bit_lt k
  simp only [Place.marked, Place.mark, Both.get_map, withBit_bit, hk, decide_true, Bool.and_true]
  by_cases h : j = k
  · simp [h]
  · have : ¬ j.bit = k.bit := fun e => h (ChangeKind.bit_inj e)
    simp [h, this]

/-- A mark changes nothing but marks. -/
theorem Place.mark_eq (p : Place) (k : ChangeKind) : p.mark k = { p with marks := (p.mark k).marks } := rfl

/-- A place's marks read clear at one port every kind but FAULT (R162, R166). -/
theorem Place.marked_clearRead (p : Place) (port : Port) (k : ChangeKind) :
    (p.clearRead port).marked port k = (p.marked port k && decide (k = .fault)) := by
  simp only [Place.marked, Place.clearRead, Both.get_set_same, BitVec.getLsbD_and, BitVec.getLsbD_twoPow]
  cases k <;> simp [ChangeKind.bit]

/-- Clearing FAULT at one port clears nothing else (R176, R177). -/
theorem Place.marked_clearFault (p : Place) (port : Port) (k : ChangeKind) :
    (p.clearFault port).marked port k = (p.marked port k && decide (k ≠ .fault)) := by
  simp only [Place.marked, Place.clearFault, Both.get_set_same, withoutBit_bit]
  cases k <;> simp [ChangeKind.bit]

/-! ## Faults of a place (R174) -/

/-- A fault's condition set leaves everything but the live set, the sticky sets and the marks. -/
theorem Place.setFault_eq (p : Place) (k : FaultKind) (on : Bool) :
    p.setFault k on = { p with live := (p.setFault k on).live, sticky := (p.setFault k on).sticky
                               marks := (p.setFault k on).marks } := by
  unfold Place.setFault; split
  · split <;> rfl
  · rfl

/-- After its condition is set a fault is live exactly when the condition holds, and every other fault is as it was. -/
theorem Place.hasFault_setFault (p : Place) (j k : FaultKind) (on : Bool) :
    (p.setFault k on).hasFault j = if j = k then on else p.hasFault j := by
  have hk := FaultKind.bit_lt k
  unfold Place.setFault
  by_cases h : j = k
  · subst h
    cases on
    · simp [Place.hasFault, withoutBit_bit]
    · by_cases hl : p.hasFault j = true
      · simp [hl]
      · simp only [hl, if_true, Bool.false_eq_true, if_false]
        show (withBit p.live j.bit).getLsbD j.bit = true
        simp [withBit_bit, hk]
  · have hb : ¬ j.bit = k.bit := fun e => h (FaultKind.bit_inj e)
    cases on
    · simp [Place.hasFault, withoutBit_bit, h, hb]
    · by_cases hl : p.hasFault k = true
      · simp [hl, h]
      · simp [hl, h]
        simp [Place.hasFault, Place.mark, withBit_bit, hb]

/-- A fault that rises sets FAULT at both ports; nothing else marks or unmarks. -/
theorem Place.marked_setFault (p : Place) (k : FaultKind) (on : Bool) (port : Port) (j : ChangeKind) :
    (p.setFault k on).marked port j = (p.marked port j || (on && !p.hasFault k && decide (j = .fault))) := by
  unfold Place.setFault
  cases on
  · simp [Place.marked]
  · by_cases hl : p.hasFault k = true
    · simp [hl]
    · simp only [Bool.not_eq_true] at hl
      simp [hl, Place.marked_mark]
      rfl

/-- Setting a fault's condition keeps both sticky sets over the live set (R174). -/
theorem Place.setFault_covers (p : Place) (k : FaultKind) (on : Bool) (h : covers p.sticky.a p.live ∧ covers p.sticky.b p.live) :
    covers (p.setFault k on).sticky.a (p.setFault k on).live ∧ covers (p.setFault k on).sticky.b (p.setFault k on).live := by
  have key : ∀ (s l : BitVec 12), l &&& s = l → ∀ i : Nat, l.getLsbD i = true → s.getLsbD i = true := by
    intro s l e i hi
    rw [← e] at hi
    simp only [BitVec.getLsbD_and, Bool.and_eq_true] at hi
    exact hi.2
  have back : ∀ (s l : BitVec 12), (∀ i : Nat, l.getLsbD i = true → s.getLsbD i = true) → l &&& s = l := by
    intro s l e
    apply BitVec.eq_of_getLsbD_eq
    intro i _
    simp only [BitVec.getLsbD_and]
    cases hl : l.getLsbD i
    · rfl
    · simp [e i hl]
  have step : ∀ s : BitVec 12, covers s p.live → covers (withBit s k.bit) (withBit p.live k.bit) ∧
      covers s (withoutBit p.live k.bit) := by
    intro s hs
    refine ⟨back _ _ fun i hi => ?_, back _ _ fun i hi => ?_⟩
    · rw [withBit_bit] at hi ⊢
      simp only [Bool.or_eq_true] at hi ⊢
      exact hi.imp (key _ _ hs i) (fun x => x)
    · rw [withoutBit_bit, Bool.and_eq_true] at hi
      exact key _ _ hs i hi.1
  unfold Place.setFault; split
  · split
    · exact h
    · exact ⟨(step _ h.1).1, (step _ h.2).1⟩
  · exact ⟨(step _ h.1).2, (step _ h.2).2⟩

/-! ## What is recomputed at every event -/

@[simp] theorem Device.aggregates_finish (d : Device) : d.finish.aggregates = d.aggregates := rfl
@[simp] theorem Device.periodOf_finish (d : Device) : d.finish.periodOf = d.periodOf := rfl
@[simp] theorem Device.mapPending_finish (d : Device) : d.finish.mapPending = d.mapPending := rfl
@[simp] theorem Device.env_finish (d : Device) : d.finish.env = d.env := rfl

/-- The attention priority reads nothing that the end of an event recomputes. -/
@[simp] theorem Device.priorityOf_finish (d : Device) (p : Port) : d.finish.priorityOf p = d.priorityOf p := by
  cases p <;> rfl

/-- After an event everything recomputed stands for the state. -/
theorem Device.published_finish (d : Device) : d.finish.publishedLaw := by
  refine ⟨rfl, rfl, ⟨?_, ?_⟩, ?_, ?_⟩
  · exact (d.priorityOf_finish .a).symm
  · simp [Device.finish, Device.attend]
  · exact (d.priorityOf_finish .b).symm
  · simp [Device.finish, Device.attend]

/-- What an event recomputes is all that a request without effect can change. -/
theorem Device.kept_finish (d : Device) (m : Moment) : d.kept (d.atMoment m).finish := by
  refine ⟨?_, ?_, ?_, ?_, ?_, ?_, ?_, ?_, ?_, ?_, ?_, ?_, ?_, fun p => ?_, fun h => ⟨?_, ?_, ?_⟩⟩
  case refine_16 =>
    have := h.2.1
    cases m <;> exact this.symm
  case refine_15 =>
    have := h.1
    cases m <;> exact this.symm
  case refine_17 =>
    obtain ⟨-, -, ⟨ha, la⟩, hb, lb⟩ := h
    have ea : d.attend .a = d.report.a := by
      have e1 : decide (d.priorityOf .a ≠ 0) = d.report.a.lineLow := by
        rw [← ha]; cases hl : d.report.a.lineLow <;> simp_all
      unfold Device.attend; rw [e1, ← ha]; rfl
    have eb : d.attend .b = d.report.b := by
      have e1 : decide (d.priorityOf .b ≠ 0) = d.report.b.lineLow := by
        rw [← hb]; cases hl : d.report.b.lineLow <;> simp_all
      unfold Device.attend; rw [e1, ← hb]; rfl
    have : (d.atMoment m).finish.report = { a := d.attend .a, b := d.attend .b } := by cases m <;> rfl
    rw [this, ea, eb]
  case refine_14 => cases m <;> cases p <;> exact ⟨rfl, rfl, rfl⟩
  all_goals (cases m <;> rfl)

/-! ## An event's moment and a port's copy -/

@[simp] theorem Device.atMoment_now (d : Device) (m : Moment) : (d.atMoment m).time.now = d.time.now := by cases m <;> rfl
@[simp] theorem Device.atMoment_globalWord (d : Device) (m : Moment) (p : Port) (n : Nat) :
    (d.atMoment m).globalWord p n = d.globalWord p n := by cases m <;> rfl
@[simp] theorem Device.atMoment_placeWord0 (d : Device) (m : Moment) (p : Place) : (d.atMoment m).placeWord0 p = d.placeWord0 p := by
  cases m <;> rfl
@[simp] theorem Device.atMoment_tableWord (d : Device) (m : Moment) (p : Port) (n : Nat) :
    (d.atMoment m).tableWord p n = d.tableWord p n := by
  unfold Device.tableWord
  rw [Device.atMoment_places, Device.atMoment_globalWord]
  simp only [Device.atMoment_station]
  cases m <;> rfl
@[simp] theorem Device.atMoment_calData (d : Device) (m : Moment) (n : Nat) : (d.atMoment m).calData n = d.calData n := by cases m <;> rfl
@[simp] theorem Device.atMoment_calibrating (d : Device) (m : Moment) (c : Code) :
    (d.atMoment m).calibrating c = d.calibrating c := by cases m <;> rfl
@[simp] theorem Device.atMoment_budgetAllows (d : Device) (m : Moment) : (d.atMoment m).budgetAllows = d.budgetAllows := by
  cases m <;> rfl
@[simp] theorem Device.atMoment_generationWord (d : Device) (m : Moment) : (d.atMoment m).generationWord = d.generationWord := by
  cases m <;> rfl

theorem other_ne (p : Port) : p.other ≠ p := by cases p <;> decide
@[simp] theorem Both.get_set_other {α : Type} (x : Both α) (p : Port) (v : α) : (x.set p v).get p.other = x.get p.other := by
  cases p <;> rfl

/-- Changing the place that holds a number is putting the changed place there. -/
theorem modify_eq_set (l : List Place) (n : Nat) (q : Place) (f : Place → Place) (h : l[n]? = some q) :
    l.modify n f = l.set n (f q) := by
  induction l generalizing n with
  | nil => simp at h
  | cons a l ih =>
    cases n with
    | zero => simp at h; subst h; rfl
    | succ n => simp at h; simp [ih _ h]

/-! ## Taking a request (R158) -/

/-- Without an open frame there is no frame event. -/
theorem State.takeRequest_closed (s : State) (p : Port) (f : Frame) (code : BitVec 6) (rule : Device → PortUnit → Reply)
    (h : (s.ports.get p).loaded = none) : s.takeRequest p f code rule = .next s := by
  simp [State.takeRequest, h]

/-- With a frame open the request's rule answers: the device is the rule's, finished; the port answers with the request's code;
the transfer is the rule's. -/
theorem State.takeRequest_open (s : State) (p : Port) (f : Frame) (code : BitVec 6) (rule : Device → PortUnit → Reply)
    (h : (s.ports.get p).loaded.isSome = true)
    (hs : (rule (s.dev.atMoment f.moment) (s.ports.get p)).unit.highSeen = (s.ports.get p).highSeen) :
    ∃ t : State, s.takeRequest p f code rule = .next t ∧
      t.dev = (rule (s.dev.atMoment f.moment) (s.ports.get p)).dev.finish ∧
      s.answered t p { status := (rule (s.dev.atMoment f.moment) (s.ports.get p)).status, echo := code
                       data := (rule (s.dev.atMoment f.moment) (s.ports.get p)).data } ∧
      (t.ports.get p).buffer = (rule (s.dev.atMoment f.moment) (s.ports.get p)).unit.buffer ∧
      (t.ports.get p).cursor = (rule (s.dev.atMoment f.moment) (s.ports.get p)).unit.cursor ∧
      (t.ports.get p).remaining = (rule (s.dev.atMoment f.moment) (s.ports.get p)).unit.remaining := by
  obtain ⟨loaded, hl⟩ := Option.isSome_iff_exists.1 h
  simp only [State.takeRequest, hl]
  refine ⟨_, rfl, rfl, ⟨?_, ?_, ?_, ?_, rfl⟩, ?_, ?_, ?_⟩
  · simp [PortUnit.closeFrame]
  · simp [PortUnit.closeFrame]
  · simpa [PortUnit.closeFrame] using hs
  · cases p <;> rfl
  · simp [PortUnit.closeFrame]
  · simp [PortUnit.closeFrame]
  · simp [PortUnit.closeFrame]

/-! ## The place list (R42, R43) -/

/-- The filled list never passes 16 places. -/
theorem fillList_length (offered : Code → List Identity) (used : Nat) (cs : List Code) (h : used ≤ Config.maxPlaces) :
    used + (fillList offered used cs).length ≤ Config.maxPlaces := by
  induction cs generalizing used with
  | nil => simpa [fillList] using h
  | cons c cs ih =>
    unfold fillList; split
    · rename_i hc
      have := ih (used + (offered c).length) hc
      rw [List.length_append]; omega
    · exact ih used h

/-- Every identity of the filled list is offered by one of the stations. -/
theorem mem_fillList (offered : Code → List Identity) (used : Nat) (cs : List Code) (i : Identity) (h : i ∈ fillList offered used cs) :
    ∃ c ∈ cs, i ∈ offered c := by
  induction cs generalizing used with
  | nil => simp [fillList] at h
  | cons c cs ih =>
    unfold fillList at h; split at h
    · rcases List.mem_append.1 h with h | h
      · exact ⟨c, by simp, h⟩
      · obtain ⟨k, hk, hi⟩ := ih _ h; exact ⟨k, by simp [hk], hi⟩
    · obtain ⟨k, hk, hi⟩ := ih _ h; exact ⟨k, by simp [hk], hi⟩

/-- An identity that a station offers names that station. -/
theorem Device.offered_station (d : Device) (c : Code) (i : Identity) (h : i ∈ d.offered c) : i.station = c := by
  unfold Device.offered at h; split at h
  · unfold Station.identities at h; split at h
    · obtain ⟨seat, _, rfl⟩ := List.mem_map.1 h; rfl
    · simp at h
  · simp at h

/-- The new list holds at most 16 identities. -/
theorem Device.newList_length (d : Device) : d.newList.length ≤ Config.maxPlaces := by
  have := fillList_length d.offered 0 (List.finRange 12) (by decide)
  simpa [Device.newList] using this

theorem seatsBelow_ascending (n : Nat) : (seatsBelow n).Pairwise (· < ·) :=
  List.Pairwise.filter _ (by decide)

theorem Device.offered_ascending (d : Device) (c : Code) : (d.offered c).Pairwise (fun i j => i.key < j.key) := by
  unfold Device.offered; split
  · unfold Station.identities; split
    · rw [List.pairwise_map]
      exact (seatsBelow_ascending _).imp (fun h => Nat.add_lt_add_left (show _ < _ from h) _)
    · exact .nil
  · exact .nil

theorem Device.fillList_ascending (d : Device) (used : Nat) (cs : List Code) (h : cs.Pairwise (· < ·)) :
    (fillList d.offered used cs).Pairwise (fun i j => i.key < j.key) := by
  induction cs generalizing used with
  | nil => exact .nil
  | cons c cs ih =>
    obtain ⟨hc, hcs⟩ := List.pairwise_cons.1 h
    unfold fillList; split
    · refine List.pairwise_append.2 ⟨d.offered_ascending c, ih _ hcs, fun i hi j hj => ?_⟩
      obtain ⟨k, hk, hjk⟩ := mem_fillList _ _ _ _ hj
      have h1 := d.offered_station c i hi
      have h2 := d.offered_station k j hjk
      have h3 : c.val < k.val := hc k hk
      have := i.seat.isLt
      simp only [Identity.key, h1, h2]; omega
    · exact ih _ hcs

/-- The new list stands in ascending order of station code and seat index. -/
theorem Device.newList_ascending (d : Device) : d.newList.Pairwise (fun i j => i.key < j.key) :=
  d.fillList_ascending 0 _ (by decide)

theorem Device.placesFor_ids (d : Device) (n : Nat) (ids : List Identity) : (d.placesFor n ids).map Place.id = ids := by
  induction ids generalizing n with
  | nil => rfl
  | cons i ids ih =>
    rw [Device.placesFor, List.map_cons, ih]
    congr 1
    unfold Device.placeAt
    split
    · rename_i p hp
      have := List.find?_some hp
      simp only [beq_iff_eq] at this
      split
      · exact this
      · exact this
    · show (d.newPlace i).id = i
      unfold Device.newPlace
      rw [Place.setFault_eq, Place.setFault_eq, Place.setFault_eq]
      rfl

theorem markMoved_ids (before after : Word) (n : Nat) (ps : List Place) : (markMoved before after n ps).map Place.id = ps.map Place.id := by
  induction ps generalizing n with
  | nil => rfl
  | cons p ps ih => rw [markMoved, List.map_cons, List.map_cons, ih]; split <;> rfl

/-- A list change leaves the identities it was given. -/
theorem Device.changeList_ids (d : Device) (list : List Identity) : (d.changeList list).places.map Place.id = list := by
  show (markMoved _ _ 0 (d.placesFor 0 list)).map Place.id = list
  rw [markMoved_ids, Device.placesFor_ids]

/-- After a rebuild the places are those of the new list (R43). -/
theorem Device.rebuild_ids (d : Device) : d.rebuild.places.map Place.id = d.newList := by
  unfold Device.rebuild
  simp only [Device.setGlobal_places]
  split
  · rename_i h; exact h.symm
  · exact d.changeList_ids _

/-! ## The end of an attempt (R8) and the excitation history (R59) -/

theorem Device.stamp_le_atMoment (d : Device) (m : Moment) : d.stamp ≤ (d.atMoment m).stamp := by
  cases m
  · exact Nat.le_refl _
  · unfold Device.atMoment Device.stamp
    simp only [if_true]
    split
    · exact Nat.le_refl _
    · exact Nat.le_succ _

/-- Whatever the command by which an attempt fails, it is the end of that attempt with the failure kind; only the characters taken so
far can differ. -/
theorem exec_of_failureOf {c : Instr} {m : Moment} {k : FailKind} {s : State} {x : Exchange} (hx : s.dev.lc.exchange = some x)
    (h : s.dev.failureOf x c = some (m, k)) :
    ∃ rx : List Byte, exec c s = .next { s with dev := ((s.dev.atMoment m).attemptFailed { x with rx := rx } k).finish } := by
  unfold Device.failureOf at h
  split at h
  · split at h
    · rename_i hp; cases h
      exact ⟨x.rx, by simp only [exec, execNoAnswerTimeout, State.attemptEnds, hx, if_pos hp, State.event]⟩
    · cases h
  · split at h
    · rename_i hp; cases h
      exact ⟨x.rx, by simp only [exec, execTruncatedTimeout, State.attemptEnds, hx, if_pos hp, State.event]⟩
    · cases h
  · split at h
    · rename_i hp; cases h
      exact ⟨x.rx, by simp only [exec, execDrainQuietTimeout, State.attemptEnds, hx, if_pos hp, State.event]⟩
    · cases h
  · split at h
    · rename_i ch hp; cases h
      exact ⟨x.rx ++ [ch.data], by
        simp only [exec, execLinkCharacterReceived, hx, hp.1, if_true, State.event, Device.takeChar, Device.atMoment_station, hp.2]⟩
    · cases h
  · cases h

/-- Whatever the command that ends an exchange, it is the end of that exchange with its outcome; only the characters taken so far can
differ. -/
theorem exec_of_endOf {i : Instr} {m : Moment} {o : LinkOutcome} {s : State} {x : Exchange} (hx : s.dev.lc.exchange = some x)
    (h : s.dev.endOf x i = some (m, o)) :
    ∃ rx : List Byte, exec i s = .next { s with dev := ((s.dev.atMoment m).endExchange { x with rx := rx } o).finish } := by
  unfold Device.endOf at h
  split at h
  · rename_i hf
    split at h
    · cases h
    · rename_i hn; cases h
      obtain ⟨rx, e⟩ := exec_of_failureOf hx hf
      exact ⟨rx, by rw [e]; simp only [Device.attemptFailed, hn, if_false]⟩
  · split at h
    · split at h
      · rename_i hp
        split at h
        · rename_i ha; cases h
          exact ⟨x.rx, by
            simp only [exec, execLinkCharacterReceived, hx, hp, if_true, State.event, Device.takeChar, Device.atMoment_station, ha]⟩
        all_goals cases h
      · cases h
    · cases h

theorem pushStamp_length (history : List Nat) (stamp : Nat) (h : history.length ≤ 4) : (pushStamp history stamp).length ≤ 4 := by
  simp only [pushStamp, List.length_drop, List.length_append, List.length_singleton]; omega

theorem mem_pushStamp {history : List Nat} {stamp t : Nat} (h : t ∈ pushStamp history stamp) : t ∈ history ∨ t = stamp := by
  simpa using List.mem_of_mem_drop h

theorem pushStamp_sorted {history : List Nat} {stamp : Nat} (h : history.Pairwise (· ≤ ·)) (hs : ∀ t ∈ history, t ≤ stamp) :
    (pushStamp history stamp).Pairwise (· ≤ ·) :=
  (List.pairwise_append.2 ⟨h, List.pairwise_singleton _ _, fun t ht u hu => by
    rw [List.mem_singleton.1 hu]; exact hs t ht⟩).sublist (List.drop_sublist _ _)

/-! ## The evaluation of a stage (R145 to R151) -/

theorem Device.eligible_iff (d : Device) (p : Place) : d.env.eligible p = true ↔ d.needsBelt p := by
  unfold Env.eligible Place.remindedClass Device.needsBelt Device.env
  cases p.reported <;> simp [and_assoc]

/-- The stage that an evaluation leaves is the one of R146 to R150. -/
theorem Device.nextStage_eq (d : Device) (p : Place) : d.env.nextStage p = d.stageAfter p := by
  have he := d.eligible_iff p
  unfold Env.nextStage Device.stageAfter
  by_cases hb : p.buckle = .latched ∨ ¬ d.needsBelt p
  · rw [if_pos hb, if_pos]
    rcases hb with hb | hb
    · simp [Place.beltFastened, hb]
    · simp [Bool.eq_false_iff.2 (mt he.1 hb)]
  · rw [if_neg hb, if_neg]
    · obtain ⟨h1, h2⟩ := not_or.1 hb
      unfold Env.held Env.speedAtLeast Device.env
      cases hs : d.vehicle.speed with
      | none => simp
      | some v =>
        by_cases hu : p.reported = .unknown
        · simp [hu]
        · cases hst : p.stage <;> simp [hu]
    · obtain ⟨h1, h2⟩ := not_or.1 hb
      simp [Place.beltFastened, h1, he.2 (not_not.1 h2)]

/-- Whether a place is counted in the unfastened count (R153). -/
theorem Device.counted_iff (d : Device) (p : Place) : d.env.counted p = true ↔ d.needsBelt p ∧ p.buckle ≠ .latched := by
  rw [← d.eligible_iff p]
  simp [Env.counted, Place.beltFastened]

/-- An evaluation by RU is the evaluation of R151 with the mark of R154, where the event left the REMINDER marks of `p` to RU. -/
theorem Place.remind_evaluated (d e : Device) (p0 p : Place) (hs : p.stage = p0.stage) (ht : p.timer = p0.timer)
    (hm : ∀ port : Port, p.marked port .reminder = p0.marked port .reminder) : d.evaluated e p0 (p.remind d.env p0 e.env) := by
  have key : ∀ q : Place, q = (p.toStage e.env).markReminder d.env p0 e.env →
      q = { p with stage := (e.stageAfter p).1, timer := (e.stageAfter p).2, marks := q.marks } := by
    rintro q rfl
    unfold Place.markReminder Place.toStage
    rw [e.nextStage_eq]
    split <;> rfl
  have h := key _ rfl
  have hback : ({ p.remind d.env p0 e.env with stage := p0.stage, timer := p0.timer } : Place) =
      { p with marks := (p.remind d.env p0 e.env).marks } := by
    unfold Place.remind; rw [h, ← hs, ← ht]
  have hstage : ∀ m : Both (BitVec 7), e.stageAfter { p with marks := m } = e.stageAfter p := fun _ => rfl
  refine ⟨?_, fun port => ?_⟩
  · rw [hback, hstage]; unfold Place.remind; rw [h]
  · have hmoved : d.reminderMoved e p0 (p.remind d.env p0 e.env) ↔
        ((p.toStage e.env).stage ≠ p0.stage ∨ e.env.counted (p.toStage e.env) ≠ d.env.counted p0) := by
      have e1 : (p.remind d.env p0 e.env).stage = (p.toStage e.env).stage := by
        unfold Place.remind Place.markReminder; split <;> rfl
      have e2 : e.needsBelt (p.remind d.env p0 e.env) ↔ e.needsBelt (p.toStage e.env) := by
        unfold Place.remind Place.markReminder; split <;> exact Iff.rfl
      have e3 : (p.remind d.env p0 e.env).buckle = (p.toStage e.env).buckle := by
        unfold Place.remind Place.markReminder; split <;> rfl
      unfold Device.reminderMoved
      rw [e1, e2, e3, ← e.counted_iff, ← d.counted_iff, ← Bool.eq_iff_iff]
    have hp : ∀ q : Place, q = p.toStage e.env → q.marked port .reminder = p0.marked port .reminder := by
      rintro q rfl; exact hm port
    show (p.remind d.env p0 e.env).marked port .reminder = _
    by_cases hc : (p.toStage e.env).stage ≠ p0.stage ∨ e.env.counted (p.toStage e.env) ≠ d.env.counted p0
    · rw [decide_eq_true (hmoved.2 hc), Bool.or_true]
      unfold Place.remind Place.markReminder
      rw [if_pos hc, Place.marked_mark, decide_eq_true rfl, Bool.or_true]
    · rw [decide_eq_false (mt hmoved.1 hc), Bool.or_false, ← hp _ rfl]
      unfold Place.remind Place.markReminder
      rw [if_neg hc]

end Sys2Proof.Machine
end

