-- ==== Sys2Proof/Laws/Places.lean ====
section
/-! SUPPORT. What each operation on one place can change, said once: every field that an operation does not name stays. -/

namespace Sys2Proof.Machine

/-! ## What each operation writes -/

/-- A stage evaluation writes stage and timer alone. -/
theorem Place.toStage_eq (e : Env) (p : Place) : p.toStage e = { p with stage := (p.toStage e).stage, timer := (p.toStage e).timer } := rfl

/-- The reminder mark writes marks alone. -/
theorem Place.markReminder_eq (p : Place) (e0 : Env) (p0 : Place) (e : Env) :
    p.markReminder e0 p0 e = { p with marks := (p.markReminder e0 p0 e).marks } := by
  unfold Place.markReminder; split <;> rfl

/-- A reminder evaluation writes stage, timer and marks alone (R151). -/
theorem Place.remind_eq (p : Place) (e0 : Env) (p0 : Place) (e : Env) :
    p.remind e0 p0 e = { p with stage := (p.toStage e).stage, timer := (p.toStage e).timer, marks := (p.remind e0 p0 e).marks } := by
  unfold Place.remind; rw [Place.markReminder_eq]; rfl

/-- A verdict evaluation writes verdict and marks alone (R108, R109). -/
theorem Place.evalVerdict_eq (e : Env) (p : Place) :
    p.evalVerdict e = { p with verdict := (p.evalVerdict e).verdict, marks := (p.evalVerdict e).marks } := by
  unfold Place.evalVerdict; repeat' split
  all_goals rfl

/-- A change of the reported class writes the class, the persistence, the empty-since instant with its trim marks, and marks (R106,
R134). -/
theorem Place.persist_eq (e : Env) (p : Place) (c : Class) :
    p.persist e c = { p with
      reported := (p.persist e c).reported, pendingClass := (p.persist e c).pendingClass, count := (p.persist e c).count
      emptySince := (p.persist e c).emptySince, nextTrim := (p.persist e c).nextTrim, trimDue := (p.persist e c).trimDue
      marks := (p.persist e c).marks } := by
  unfold Place.persist; simp only; repeat' split
  all_goals rfl

theorem Place.passEvaluation_eq (e : Env) (p : Place) :
    p.passEvaluation e = { p with
      reported := (p.passEvaluation e).reported, pendingClass := (p.passEvaluation e).pendingClass
      count := (p.passEvaluation e).count, emptySince := (p.passEvaluation e).emptySince
      nextTrim := (p.passEvaluation e).nextTrim, trimDue := (p.passEvaluation e).trimDue, marks := (p.passEvaluation e).marks } := by
  unfold Place.passEvaluation; split
  · exact Place.persist_eq _ _ _
  · rfl

theorem Place.rowOneEvaluation_eq (e : Env) (p : Place) :
    p.rowOneEvaluation e = { p with
      reported := (p.rowOneEvaluation e).reported, pendingClass := (p.rowOneEvaluation e).pendingClass
      count := (p.rowOneEvaluation e).count, emptySince := (p.rowOneEvaluation e).emptySince
      nextTrim := (p.rowOneEvaluation e).nextTrim, trimDue := (p.rowOneEvaluation e).trimDue, marks := (p.rowOneEvaluation e).marks } := by
  unfold Place.rowOneEvaluation; split
  · exact Place.persist_eq _ _ _
  · rfl

/-! ## Operations that leave most of a place alone -/

theorem Place.noteFastened_eq (e : Env) (p : Place) : p.noteFastened e = { p with fastened := (p.noteFastened e).fastened } := by
  unfold Place.noteFastened; split <;> rfl

theorem Place.noteBelt_eq (b : Reading) (p : Place) : p.noteBelt b = { p with marks := (p.noteBelt b).marks } := by
  unfold Place.noteBelt; split <;> rfl

theorem Place.loadFaults_eq (p : Place) (v : CalValues) (r : Readings) :
    p.loadFaults v r = { p with
      live := (p.loadFaults v r).live, sticky := (p.loadFaults v r).sticky, marks := (p.loadFaults v r).marks } := by
  unfold Place.loadFaults
  simp only
  generalize decide (1 ≤ 12 - (presentCells v r).length) = b1
  generalize decide (2 ≤ 12 - (presentCells v r).length) = b2
  rw [Place.setFault_eq p .cellOpen, Place.setFault_eq _ .cellsOpen, Place.setFault_eq _ .cellSat, Place.setFault_eq _ .anchorFault,
    Place.setFault_eq _ .anchorPartial, Place.setFault_eq _ .buckleFault]

theorem Place.trimStep_eq (v : CalValues) (r : Readings) (p : Place) :
    p.trimStep v r = { p with
      trims := (p.trimStep v r).trims, trimDue := (p.trimStep v r).trimDue
      live := (p.trimStep v r).live, sticky := (p.trimStep v r).sticky, marks := (p.trimStep v r).marks } := by
  unfold Place.trimStep
  simp only
  split
  · rw [Place.setFault_eq]
  · rfl

theorem Place.driftTrim_eq (e : Env) (v : CalValues) (r : Readings) (p : Place) :
    p.driftTrim e v r = { p with
      trims := (p.driftTrim e v r).trims, trimDue := (p.driftTrim e v r).trimDue
      live := (p.driftTrim e v r).live, sticky := (p.driftTrim e v r).sticky, marks := (p.driftTrim e v r).marks } := by
  unfold Place.driftTrim; split
  · exact Place.trimStep_eq v r p
  · rfl

/-- The end of a calibration writes the calibration, the class with its persistence and trim marks, the verdict, the stage, marks. -/
theorem Place.endCal_eq (e : Env) (st : CalEnd) (p : Place) :
    p.endCal e st = { p with
      cal := .ended st
      reported := (p.endCal e st).reported, pendingClass := (p.endCal e st).pendingClass, count := (p.endCal e st).count
      emptySince := (p.endCal e st).emptySince, nextTrim := (p.endCal e st).nextTrim, trimDue := (p.endCal e st).trimDue
      verdict := (p.endCal e st).verdict, stage := (p.endCal e st).stage, timer := (p.endCal e st).timer
      marks := (p.endCal e st).marks } := by
  unfold Place.endCal
  simp only
  rw [Place.toStage_eq, Place.evalVerdict_eq, Place.rowOneEvaluation_eq]
  rfl

/-! ## Marks are only added -/

/-- Every mark pending before is pending after. -/
abbrev Place.marksGrow (p q : Place) : Prop := ∀ (port : Port) (k : ChangeKind), p.marked port k = true → q.marked port k = true

theorem Place.marksGrow_mark (p : Place) (k : ChangeKind) : p.marksGrow (p.mark k) := fun port j h => by
  rw [Place.marked_mark, h]; rfl
theorem Place.marksGrow_setFault (p : Place) (k : FaultKind) (on : Bool) : p.marksGrow (p.setFault k on) := fun port j h => by
  rw [Place.marked_setFault, h]; rfl
theorem Place.marksGrow_markReminder (p : Place) (e0 : Env) (p0 : Place) (e : Env) : p.marksGrow (p.markReminder e0 p0 e) := by
  unfold Place.markReminder; split
  · exact p.marksGrow_mark _
  · exact fun _ _ h => h
theorem Place.marksGrow_remind (p : Place) (e0 : Env) (p0 : Place) (e : Env) : p.marksGrow (p.remind e0 p0 e) :=
  fun port k h => Place.marksGrow_markReminder (p.toStage e) e0 p0 e port k h
theorem Place.marksGrow_evalVerdict (e : Env) (p : Place) : p.marksGrow (p.evalVerdict e) := by
  unfold Place.evalVerdict; split
  · exact fun _ _ h => h
  · split
    · exact fun _ _ h => h
    · exact fun port k h => Place.marksGrow_mark { p with verdict := e.verdictOf p } _ port k h

/-! ## Results -/

/-- Outside FROZEN a verdict evaluation leaves the verdict of R108; in FROZEN it changes nothing. -/
theorem Place.evalVerdict_verdict (e : Env) (p : Place) :
    (p.evalVerdict e).verdict = if e.mode = .frozen then p.verdict else e.verdictOf p := by
  unfold Place.evalVerdict; split
  · rfl
  · split
    · rename_i h; exact h.symm
    · rfl

/-- In FROZEN no evaluation of CL changes anything (R113). -/
theorem Place.frozen_evaluations (e : Env) (p : Place) (h : e.mode = .frozen) :
    p.evalVerdict e = p ∧ p.rowOneEvaluation e = p ∧ p.passEvaluation e = p := by
  have hc : e.classifies p = false := by simp [Env.classifies, h]
  refine ⟨by simp [Place.evalVerdict, h], ?_, ?_⟩
  · simp [Place.rowOneEvaluation, hc]
  · simp [Place.passEvaluation, hc]

/-- A release or freshness evaluation leaves UNKNOWN with no pending class when the place cannot be judged, else nothing changed
(R100, R103). -/
theorem Place.rowOneEvaluation_reported (e : Env) (p : Place) :
    (p.rowOneEvaluation e).reported = if e.classifies p = true ∧ p.cannotJudge = true then .unknown else p.reported := by
  unfold Place.rowOneEvaluation
  by_cases h : e.classifies p = true ∧ p.cannotJudge = true
  · simp only [h, Bool.and_self, if_true, and_self]
    unfold Place.persist; split
    · rename_i hc; exact hc.symm
    · have : ∀ n : Nat, e.params.threshold .unknown ≤ (if p.pendingClass = some .unknown then p.count + 1 else n + 1) := by
        intro n; simp only [Params.threshold]; split <;> omega
      simp only [this 0, if_true]; rfl
  · have : (e.classifies p && p.cannotJudge) = false := by
      rcases Bool.eq_false_or_eq_true (e.classifies p) with h1 | h1 <;>
        rcases Bool.eq_false_or_eq_true p.cannotJudge with h2 | h2 <;> simp_all
    simp [this, h]

/-- A fault is what the last setting made it; the evaluations leave the faults alone. -/
theorem Place.hasFault_of_live {p q : Place} (h : q.live = p.live) (k : FaultKind) : q.hasFault k = p.hasFault k := by
  simp [Place.hasFault, h]

end Sys2Proof.Machine
end

