-- ==== Sys2Proof/Laws/PlaceFields.lean ====
section
/-! SUPPORT. The fields of a place that each place operation leaves alone, one lemma for each field and operation, so that no later proof
unfolds an operation for a field it does not write. -/

namespace Sys2Proof.Machine

/-! ### mark -/

@[simp] theorem Place.mark_id (p : Place) (k : ChangeKind) : (p.mark k).id = p.id := rfl
@[simp] theorem Place.mark_total (p : Place) (k : ChangeKind) : (p.mark k).total = p.total := rfl
@[simp] theorem Place.mark_atLeast (p : Place) (k : ChangeKind) : (p.mark k).atLeast = p.atLeast := rfl
@[simp] theorem Place.mark_degraded (p : Place) (k : ChangeKind) : (p.mark k).degraded = p.degraded := rfl
@[simp] theorem Place.mark_conc (p : Place) (k : ChangeKind) : (p.mark k).conc = p.conc := rfl
@[simp] theorem Place.mark_filter (p : Place) (k : ChangeKind) : (p.mark k).filter = p.filter := rfl
@[simp] theorem Place.mark_buckle (p : Place) (k : ChangeKind) : (p.mark k).buckle = p.buckle := rfl
@[simp] theorem Place.mark_leftAnchor (p : Place) (k : ChangeKind) : (p.mark k).leftAnchor = p.leftAnchor := rfl
@[simp] theorem Place.mark_rightAnchor (p : Place) (k : ChangeKind) : (p.mark k).rightAnchor = p.rightAnchor := rfl
@[simp] theorem Place.mark_partialCount (p : Place) (k : ChangeKind) : (p.mark k).partialCount = p.partialCount := rfl
@[simp] theorem Place.mark_age (p : Place) (k : ChangeKind) : (p.mark k).age = p.age := rfl
@[simp] theorem Place.mark_joinStamp (p : Place) (k : ChangeKind) : (p.mark k).joinStamp = p.joinStamp := rfl
@[simp] theorem Place.mark_fresh (p : Place) (k : ChangeKind) : (p.mark k).fresh = p.fresh := rfl
@[simp] theorem Place.mark_reported (p : Place) (k : ChangeKind) : (p.mark k).reported = p.reported := rfl
@[simp] theorem Place.mark_pendingClass (p : Place) (k : ChangeKind) : (p.mark k).pendingClass = p.pendingClass := rfl
@[simp] theorem Place.mark_count (p : Place) (k : ChangeKind) : (p.mark k).count = p.count := rfl
@[simp] theorem Place.mark_verdict (p : Place) (k : ChangeKind) : (p.mark k).verdict = p.verdict := rfl
@[simp] theorem Place.mark_refZeros (p : Place) (k : ChangeKind) : (p.mark k).refZeros = p.refZeros := rfl
@[simp] theorem Place.mark_trims (p : Place) (k : ChangeKind) : (p.mark k).trims = p.trims := rfl
@[simp] theorem Place.mark_cal (p : Place) (k : ChangeKind) : (p.mark k).cal = p.cal := rfl
@[simp] theorem Place.mark_emptySince (p : Place) (k : ChangeKind) : (p.mark k).emptySince = p.emptySince := rfl
@[simp] theorem Place.mark_nextTrim (p : Place) (k : ChangeKind) : (p.mark k).nextTrim = p.nextTrim := rfl
@[simp] theorem Place.mark_trimDue (p : Place) (k : ChangeKind) : (p.mark k).trimDue = p.trimDue := rfl
@[simp] theorem Place.mark_stage (p : Place) (k : ChangeKind) : (p.mark k).stage = p.stage := rfl
@[simp] theorem Place.mark_timer (p : Place) (k : ChangeKind) : (p.mark k).timer = p.timer := rfl
@[simp] theorem Place.mark_fastened (p : Place) (k : ChangeKind) : (p.mark k).fastened = p.fastened := rfl
@[simp] theorem Place.mark_policy (p : Place) (k : ChangeKind) : (p.mark k).policy = p.policy := rfl
@[simp] theorem Place.mark_live (p : Place) (k : ChangeKind) : (p.mark k).live = p.live := rfl
@[simp] theorem Place.mark_sticky (p : Place) (k : ChangeKind) : (p.mark k).sticky = p.sticky := rfl

/-! ### setFault -/

@[simp] theorem Place.setFault_id (p : Place) (k : FaultKind) (on : Bool) : (p.setFault k on).id = p.id := by rw [Place.setFault_eq]
@[simp] theorem Place.setFault_total (p : Place) (k : FaultKind) (on : Bool) : (p.setFault k on).total = p.total := by rw [Place.setFault_eq]
@[simp] theorem Place.setFault_atLeast (p : Place) (k : FaultKind) (on : Bool) : (p.setFault k on).atLeast = p.atLeast := by rw [Place.setFault_eq]
@[simp] theorem Place.setFault_degraded (p : Place) (k : FaultKind) (on : Bool) : (p.setFault k on).degraded = p.degraded := by rw [Place.setFault_eq]
@[simp] theorem Place.setFault_conc (p : Place) (k : FaultKind) (on : Bool) : (p.setFault k on).conc = p.conc := by rw [Place.setFault_eq]
@[simp] theorem Place.setFault_filter (p : Place) (k : FaultKind) (on : Bool) : (p.setFault k on).filter = p.filter := by rw [Place.setFault_eq]
@[simp] theorem Place.setFault_buckle (p : Place) (k : FaultKind) (on : Bool) : (p.setFault k on).buckle = p.buckle := by rw [Place.setFault_eq]
@[simp] theorem Place.setFault_leftAnchor (p : Place) (k : FaultKind) (on : Bool) : (p.setFault k on).leftAnchor = p.leftAnchor := by rw [Place.setFault_eq]
@[simp] theorem Place.setFault_rightAnchor (p : Place) (k : FaultKind) (on : Bool) : (p.setFault k on).rightAnchor = p.rightAnchor := by rw [Place.setFault_eq]
@[simp] theorem Place.setFault_partialCount (p : Place) (k : FaultKind) (on : Bool) : (p.setFault k on).partialCount = p.partialCount := by rw [Place.setFault_eq]
@[simp] theorem Place.setFault_age (p : Place) (k : FaultKind) (on : Bool) : (p.setFault k on).age = p.age := by rw [Place.setFault_eq]
@[simp] theorem Place.setFault_joinStamp (p : Place) (k : FaultKind) (on : Bool) : (p.setFault k on).joinStamp = p.joinStamp := by rw [Place.setFault_eq]
@[simp] theorem Place.setFault_fresh (p : Place) (k : FaultKind) (on : Bool) : (p.setFault k on).fresh = p.fresh := by rw [Place.setFault_eq]
@[simp] theorem Place.setFault_reported (p : Place) (k : FaultKind) (on : Bool) : (p.setFault k on).reported = p.reported := by rw [Place.setFault_eq]
@[simp] theorem Place.setFault_pendingClass (p : Place) (k : FaultKind) (on : Bool) : (p.setFault k on).pendingClass = p.pendingClass := by rw [Place.setFault_eq]
@[simp] theorem Place.setFault_count (p : Place) (k : FaultKind) (on : Bool) : (p.setFault k on).count = p.count := by rw [Place.setFault_eq]
@[simp] theorem Place.setFault_verdict (p : Place) (k : FaultKind) (on : Bool) : (p.setFault k on).verdict = p.verdict := by rw [Place.setFault_eq]
@[simp] theorem Place.setFault_refZeros (p : Place) (k : FaultKind) (on : Bool) : (p.setFault k on).refZeros = p.refZeros := by rw [Place.setFault_eq]
@[simp] theorem Place.setFault_trims (p : Place) (k : FaultKind) (on : Bool) : (p.setFault k on).trims = p.trims := by rw [Place.setFault_eq]
@[simp] theorem Place.setFault_cal (p : Place) (k : FaultKind) (on : Bool) : (p.setFault k on).cal = p.cal := by rw [Place.setFault_eq]
@[simp] theorem Place.setFault_emptySince (p : Place) (k : FaultKind) (on : Bool) : (p.setFault k on).emptySince = p.emptySince := by rw [Place.setFault_eq]
@[simp] theorem Place.setFault_nextTrim (p : Place) (k : FaultKind) (on : Bool) : (p.setFault k on).nextTrim = p.nextTrim := by rw [Place.setFault_eq]
@[simp] theorem Place.setFault_trimDue (p : Place) (k : FaultKind) (on : Bool) : (p.setFault k on).trimDue = p.trimDue := by rw [Place.setFault_eq]
@[simp] theorem Place.setFault_stage (p : Place) (k : FaultKind) (on : Bool) : (p.setFault k on).stage = p.stage := by rw [Place.setFault_eq]
@[simp] theorem Place.setFault_timer (p : Place) (k : FaultKind) (on : Bool) : (p.setFault k on).timer = p.timer := by rw [Place.setFault_eq]
@[simp] theorem Place.setFault_fastened (p : Place) (k : FaultKind) (on : Bool) : (p.setFault k on).fastened = p.fastened := by rw [Place.setFault_eq]
@[simp] theorem Place.setFault_policy (p : Place) (k : FaultKind) (on : Bool) : (p.setFault k on).policy = p.policy := by rw [Place.setFault_eq]

/-! ### markReminder -/

@[simp] theorem Place.markReminder_id (p : Place) (e0 : Env) (p0 : Place) (e : Env) : (p.markReminder e0 p0 e).id = p.id := by rw [Place.markReminder_eq]
@[simp] theorem Place.markReminder_total (p : Place) (e0 : Env) (p0 : Place) (e : Env) : (p.markReminder e0 p0 e).total = p.total := by rw [Place.markReminder_eq]
@[simp] theorem Place.markReminder_atLeast (p : Place) (e0 : Env) (p0 : Place) (e : Env) : (p.markReminder e0 p0 e).atLeast = p.atLeast := by rw [Place.markReminder_eq]
@[simp] theorem Place.markReminder_degraded (p : Place) (e0 : Env) (p0 : Place) (e : Env) : (p.markReminder e0 p0 e).degraded = p.degraded := by rw [Place.markReminder_eq]
@[simp] theorem Place.markReminder_conc (p : Place) (e0 : Env) (p0 : Place) (e : Env) : (p.markReminder e0 p0 e).conc = p.conc := by rw [Place.markReminder_eq]
@[simp] theorem Place.markReminder_filter (p : Place) (e0 : Env) (p0 : Place) (e : Env) : (p.markReminder e0 p0 e).filter = p.filter := by rw [Place.markReminder_eq]
@[simp] theorem Place.markReminder_buckle (p : Place) (e0 : Env) (p0 : Place) (e : Env) : (p.markReminder e0 p0 e).buckle = p.buckle := by rw [Place.markReminder_eq]
@[simp] theorem Place.markReminder_leftAnchor (p : Place) (e0 : Env) (p0 : Place) (e : Env) : (p.markReminder e0 p0 e).leftAnchor = p.leftAnchor := by rw [Place.markReminder_eq]
@[simp] theorem Place.markReminder_rightAnchor (p : Place) (e0 : Env) (p0 : Place) (e : Env) : (p.markReminder e0 p0 e).rightAnchor = p.rightAnchor := by rw [Place.markReminder_eq]
@[simp] theorem Place.markReminder_partialCount (p : Place) (e0 : Env) (p0 : Place) (e : Env) : (p.markReminder e0 p0 e).partialCount = p.partialCount := by rw [Place.markReminder_eq]
@[simp] theorem Place.markReminder_age (p : Place) (e0 : Env) (p0 : Place) (e : Env) : (p.markReminder e0 p0 e).age = p.age := by rw [Place.markReminder_eq]
@[simp] theorem Place.markReminder_joinStamp (p : Place) (e0 : Env) (p0 : Place) (e : Env) : (p.markReminder e0 p0 e).joinStamp = p.joinStamp := by rw [Place.markReminder_eq]
@[simp] theorem Place.markReminder_fresh (p : Place) (e0 : Env) (p0 : Place) (e : Env) : (p.markReminder e0 p0 e).fresh = p.fresh := by rw [Place.markReminder_eq]
@[simp] theorem Place.markReminder_reported (p : Place) (e0 : Env) (p0 : Place) (e : Env) : (p.markReminder e0 p0 e).reported = p.reported := by rw [Place.markReminder_eq]
@[simp] theorem Place.markReminder_pendingClass (p : Place) (e0 : Env) (p0 : Place) (e : Env) : (p.markReminder e0 p0 e).pendingClass = p.pendingClass := by rw [Place.markReminder_eq]
@[simp] theorem Place.markReminder_count (p : Place) (e0 : Env) (p0 : Place) (e : Env) : (p.markReminder e0 p0 e).count = p.count := by rw [Place.markReminder_eq]
@[simp] theorem Place.markReminder_verdict (p : Place) (e0 : Env) (p0 : Place) (e : Env) : (p.markReminder e0 p0 e).verdict = p.verdict := by rw [Place.markReminder_eq]
@[simp] theorem Place.markReminder_refZeros (p : Place) (e0 : Env) (p0 : Place) (e : Env) : (p.markReminder e0 p0 e).refZeros = p.refZeros := by rw [Place.markReminder_eq]
@[simp] theorem Place.markReminder_trims (p : Place) (e0 : Env) (p0 : Place) (e : Env) : (p.markReminder e0 p0 e).trims = p.trims := by rw [Place.markReminder_eq]
@[simp] theorem Place.markReminder_cal (p : Place) (e0 : Env) (p0 : Place) (e : Env) : (p.markReminder e0 p0 e).cal = p.cal := by rw [Place.markReminder_eq]
@[simp] theorem Place.markReminder_emptySince (p : Place) (e0 : Env) (p0 : Place) (e : Env) : (p.markReminder e0 p0 e).emptySince = p.emptySince := by rw [Place.markReminder_eq]
@[simp] theorem Place.markReminder_nextTrim (p : Place) (e0 : Env) (p0 : Place) (e : Env) : (p.markReminder e0 p0 e).nextTrim = p.nextTrim := by rw [Place.markReminder_eq]
@[simp] theorem Place.markReminder_trimDue (p : Place) (e0 : Env) (p0 : Place) (e : Env) : (p.markReminder e0 p0 e).trimDue = p.trimDue := by rw [Place.markReminder_eq]
@[simp] theorem Place.markReminder_stage (p : Place) (e0 : Env) (p0 : Place) (e : Env) : (p.markReminder e0 p0 e).stage = p.stage := by rw [Place.markReminder_eq]
@[simp] theorem Place.markReminder_timer (p : Place) (e0 : Env) (p0 : Place) (e : Env) : (p.markReminder e0 p0 e).timer = p.timer := by rw [Place.markReminder_eq]
@[simp] theorem Place.markReminder_fastened (p : Place) (e0 : Env) (p0 : Place) (e : Env) : (p.markReminder e0 p0 e).fastened = p.fastened := by rw [Place.markReminder_eq]
@[simp] theorem Place.markReminder_policy (p : Place) (e0 : Env) (p0 : Place) (e : Env) : (p.markReminder e0 p0 e).policy = p.policy := by rw [Place.markReminder_eq]
@[simp] theorem Place.markReminder_live (p : Place) (e0 : Env) (p0 : Place) (e : Env) : (p.markReminder e0 p0 e).live = p.live := by rw [Place.markReminder_eq]
@[simp] theorem Place.markReminder_sticky (p : Place) (e0 : Env) (p0 : Place) (e : Env) : (p.markReminder e0 p0 e).sticky = p.sticky := by rw [Place.markReminder_eq]

/-! ### toStage -/

@[simp] theorem Place.toStage_id (p : Place) (e : Env) : (p.toStage e).id = p.id := rfl
@[simp] theorem Place.toStage_total (p : Place) (e : Env) : (p.toStage e).total = p.total := rfl
@[simp] theorem Place.toStage_atLeast (p : Place) (e : Env) : (p.toStage e).atLeast = p.atLeast := rfl
@[simp] theorem Place.toStage_degraded (p : Place) (e : Env) : (p.toStage e).degraded = p.degraded := rfl
@[simp] theorem Place.toStage_conc (p : Place) (e : Env) : (p.toStage e).conc = p.conc := rfl
@[simp] theorem Place.toStage_filter (p : Place) (e : Env) : (p.toStage e).filter = p.filter := rfl
@[simp] theorem Place.toStage_buckle (p : Place) (e : Env) : (p.toStage e).buckle = p.buckle := rfl
@[simp] theorem Place.toStage_leftAnchor (p : Place) (e : Env) : (p.toStage e).leftAnchor = p.leftAnchor := rfl
@[simp] theorem Place.toStage_rightAnchor (p : Place) (e : Env) : (p.toStage e).rightAnchor = p.rightAnchor := rfl
@[simp] theorem Place.toStage_partialCount (p : Place) (e : Env) : (p.toStage e).partialCount = p.partialCount := rfl
@[simp] theorem Place.toStage_age (p : Place) (e : Env) : (p.toStage e).age = p.age := rfl
@[simp] theorem Place.toStage_joinStamp (p : Place) (e : Env) : (p.toStage e).joinStamp = p.joinStamp := rfl
@[simp] theorem Place.toStage_fresh (p : Place) (e : Env) : (p.toStage e).fresh = p.fresh := rfl
@[simp] theorem Place.toStage_reported (p : Place) (e : Env) : (p.toStage e).reported = p.reported := rfl
@[simp] theorem Place.toStage_pendingClass (p : Place) (e : Env) : (p.toStage e).pendingClass = p.pendingClass := rfl
@[simp] theorem Place.toStage_count (p : Place) (e : Env) : (p.toStage e).count = p.count := rfl
@[simp] theorem Place.toStage_verdict (p : Place) (e : Env) : (p.toStage e).verdict = p.verdict := rfl
@[simp] theorem Place.toStage_refZeros (p : Place) (e : Env) : (p.toStage e).refZeros = p.refZeros := rfl
@[simp] theorem Place.toStage_trims (p : Place) (e : Env) : (p.toStage e).trims = p.trims := rfl
@[simp] theorem Place.toStage_cal (p : Place) (e : Env) : (p.toStage e).cal = p.cal := rfl
@[simp] theorem Place.toStage_emptySince (p : Place) (e : Env) : (p.toStage e).emptySince = p.emptySince := rfl
@[simp] theorem Place.toStage_nextTrim (p : Place) (e : Env) : (p.toStage e).nextTrim = p.nextTrim := rfl
@[simp] theorem Place.toStage_trimDue (p : Place) (e : Env) : (p.toStage e).trimDue = p.trimDue := rfl
@[simp] theorem Place.toStage_fastened (p : Place) (e : Env) : (p.toStage e).fastened = p.fastened := rfl
@[simp] theorem Place.toStage_policy (p : Place) (e : Env) : (p.toStage e).policy = p.policy := rfl
@[simp] theorem Place.toStage_live (p : Place) (e : Env) : (p.toStage e).live = p.live := rfl
@[simp] theorem Place.toStage_sticky (p : Place) (e : Env) : (p.toStage e).sticky = p.sticky := rfl
@[simp] theorem Place.toStage_marks (p : Place) (e : Env) : (p.toStage e).marks = p.marks := rfl

/-! ### remind -/

@[simp] theorem Place.remind_id (p : Place) (e0 : Env) (p0 : Place) (e : Env) : (p.remind e0 p0 e).id = p.id := by rw [Place.remind_eq]
@[simp] theorem Place.remind_total (p : Place) (e0 : Env) (p0 : Place) (e : Env) : (p.remind e0 p0 e).total = p.total := by rw [Place.remind_eq]
@[simp] theorem Place.remind_atLeast (p : Place) (e0 : Env) (p0 : Place) (e : Env) : (p.remind e0 p0 e).atLeast = p.atLeast := by rw [Place.remind_eq]
@[simp] theorem Place.remind_degraded (p : Place) (e0 : Env) (p0 : Place) (e : Env) : (p.remind e0 p0 e).degraded = p.degraded := by rw [Place.remind_eq]
@[simp] theorem Place.remind_conc (p : Place) (e0 : Env) (p0 : Place) (e : Env) : (p.remind e0 p0 e).conc = p.conc := by rw [Place.remind_eq]
@[simp] theorem Place.remind_filter (p : Place) (e0 : Env) (p0 : Place) (e : Env) : (p.remind e0 p0 e).filter = p.filter := by rw [Place.remind_eq]
@[simp] theorem Place.remind_buckle (p : Place) (e0 : Env) (p0 : Place) (e : Env) : (p.remind e0 p0 e).buckle = p.buckle := by rw [Place.remind_eq]
@[simp] theorem Place.remind_leftAnchor (p : Place) (e0 : Env) (p0 : Place) (e : Env) : (p.remind e0 p0 e).leftAnchor = p.leftAnchor := by rw [Place.remind_eq]
@[simp] theorem Place.remind_rightAnchor (p : Place) (e0 : Env) (p0 : Place) (e : Env) : (p.remind e0 p0 e).rightAnchor = p.rightAnchor := by rw [Place.remind_eq]
@[simp] theorem Place.remind_partialCount (p : Place) (e0 : Env) (p0 : Place) (e : Env) : (p.remind e0 p0 e).partialCount = p.partialCount := by rw [Place.remind_eq]
@[simp] theorem Place.remind_age (p : Place) (e0 : Env) (p0 : Place) (e : Env) : (p.remind e0 p0 e).age = p.age := by rw [Place.remind_eq]
@[simp] theorem Place.remind_joinStamp (p : Place) (e0 : Env) (p0 : Place) (e : Env) : (p.remind e0 p0 e).joinStamp = p.joinStamp := by rw [Place.remind_eq]
@[simp] theorem Place.remind_fresh (p : Place) (e0 : Env) (p0 : Place) (e : Env) : (p.remind e0 p0 e).fresh = p.fresh := by rw [Place.remind_eq]
@[simp] theorem Place.remind_reported (p : Place) (e0 : Env) (p0 : Place) (e : Env) : (p.remind e0 p0 e).reported = p.reported := by rw [Place.remind_eq]
@[simp] theorem Place.remind_pendingClass (p : Place) (e0 : Env) (p0 : Place) (e : Env) : (p.remind e0 p0 e).pendingClass = p.pendingClass := by rw [Place.remind_eq]
@[simp] theorem Place.remind_count (p : Place) (e0 : Env) (p0 : Place) (e : Env) : (p.remind e0 p0 e).count = p.count := by rw [Place.remind_eq]
@[simp] theorem Place.remind_verdict (p : Place) (e0 : Env) (p0 : Place) (e : Env) : (p.remind e0 p0 e).verdict = p.verdict := by rw [Place.remind_eq]
@[simp] theorem Place.remind_refZeros (p : Place) (e0 : Env) (p0 : Place) (e : Env) : (p.remind e0 p0 e).refZeros = p.refZeros := by rw [Place.remind_eq]
@[simp] theorem Place.remind_trims (p : Place) (e0 : Env) (p0 : Place) (e : Env) : (p.remind e0 p0 e).trims = p.trims := by rw [Place.remind_eq]
@[simp] theorem Place.remind_cal (p : Place) (e0 : Env) (p0 : Place) (e : Env) : (p.remind e0 p0 e).cal = p.cal := by rw [Place.remind_eq]
@[simp] theorem Place.remind_emptySince (p : Place) (e0 : Env) (p0 : Place) (e : Env) : (p.remind e0 p0 e).emptySince = p.emptySince := by rw [Place.remind_eq]
@[simp] theorem Place.remind_nextTrim (p : Place) (e0 : Env) (p0 : Place) (e : Env) : (p.remind e0 p0 e).nextTrim = p.nextTrim := by rw [Place.remind_eq]
@[simp] theorem Place.remind_trimDue (p : Place) (e0 : Env) (p0 : Place) (e : Env) : (p.remind e0 p0 e).trimDue = p.trimDue := by rw [Place.remind_eq]
@[simp] theorem Place.remind_fastened (p : Place) (e0 : Env) (p0 : Place) (e : Env) : (p.remind e0 p0 e).fastened = p.fastened := by rw [Place.remind_eq]
@[simp] theorem Place.remind_policy (p : Place) (e0 : Env) (p0 : Place) (e : Env) : (p.remind e0 p0 e).policy = p.policy := by rw [Place.remind_eq]
@[simp] theorem Place.remind_live (p : Place) (e0 : Env) (p0 : Place) (e : Env) : (p.remind e0 p0 e).live = p.live := by rw [Place.remind_eq]
@[simp] theorem Place.remind_sticky (p : Place) (e0 : Env) (p0 : Place) (e : Env) : (p.remind e0 p0 e).sticky = p.sticky := by rw [Place.remind_eq]

/-! ### evalVerdict -/

@[simp] theorem Place.evalVerdict_id (p : Place) (e : Env) : (p.evalVerdict e).id = p.id := by rw [Place.evalVerdict_eq]
@[simp] theorem Place.evalVerdict_total (p : Place) (e : Env) : (p.evalVerdict e).total = p.total := by rw [Place.evalVerdict_eq]
@[simp] theorem Place.evalVerdict_atLeast (p : Place) (e : Env) : (p.evalVerdict e).atLeast = p.atLeast := by rw [Place.evalVerdict_eq]
@[simp] theorem Place.evalVerdict_degraded (p : Place) (e : Env) : (p.evalVerdict e).degraded = p.degraded := by rw [Place.evalVerdict_eq]
@[simp] theorem Place.evalVerdict_conc (p : Place) (e : Env) : (p.evalVerdict e).conc = p.conc := by rw [Place.evalVerdict_eq]
@[simp] theorem Place.evalVerdict_filter (p : Place) (e : Env) : (p.evalVerdict e).filter = p.filter := by rw [Place.evalVerdict_eq]
@[simp] theorem Place.evalVerdict_buckle (p : Place) (e : Env) : (p.evalVerdict e).buckle = p.buckle := by rw [Place.evalVerdict_eq]
@[simp] theorem Place.evalVerdict_leftAnchor (p : Place) (e : Env) : (p.evalVerdict e).leftAnchor = p.leftAnchor := by rw [Place.evalVerdict_eq]
@[simp] theorem Place.evalVerdict_rightAnchor (p : Place) (e : Env) : (p.evalVerdict e).rightAnchor = p.rightAnchor := by rw [Place.evalVerdict_eq]
@[simp] theorem Place.evalVerdict_partialCount (p : Place) (e : Env) : (p.evalVerdict e).partialCount = p.partialCount := by rw [Place.evalVerdict_eq]
@[simp] theorem Place.evalVerdict_age (p : Place) (e : Env) : (p.evalVerdict e).age = p.age := by rw [Place.evalVerdict_eq]
@[simp] theorem Place.evalVerdict_joinStamp (p : Place) (e : Env) : (p.evalVerdict e).joinStamp = p.joinStamp := by rw [Place.evalVerdict_eq]
@[simp] theorem Place.evalVerdict_fresh (p : Place) (e : Env) : (p.evalVerdict e).fresh = p.fresh := by rw [Place.evalVerdict_eq]
@[simp] theorem Place.evalVerdict_reported (p : Place) (e : Env) : (p.evalVerdict e).reported = p.reported := by rw [Place.evalVerdict_eq]
@[simp] theorem Place.evalVerdict_pendingClass (p : Place) (e : Env) : (p.evalVerdict e).pendingClass = p.pendingClass := by rw [Place.evalVerdict_eq]
@[simp] theorem Place.evalVerdict_count (p : Place) (e : Env) : (p.evalVerdict e).count = p.count := by rw [Place.evalVerdict_eq]
@[simp] theorem Place.evalVerdict_refZeros (p : Place) (e : Env) : (p.evalVerdict e).refZeros = p.refZeros := by rw [Place.evalVerdict_eq]
@[simp] theorem Place.evalVerdict_trims (p : Place) (e : Env) : (p.evalVerdict e).trims = p.trims := by rw [Place.evalVerdict_eq]
@[simp] theorem Place.evalVerdict_cal (p : Place) (e : Env) : (p.evalVerdict e).cal = p.cal := by rw [Place.evalVerdict_eq]
@[simp] theorem Place.evalVerdict_emptySince (p : Place) (e : Env) : (p.evalVerdict e).emptySince = p.emptySince := by rw [Place.evalVerdict_eq]
@[simp] theorem Place.evalVerdict_nextTrim (p : Place) (e : Env) : (p.evalVerdict e).nextTrim = p.nextTrim := by rw [Place.evalVerdict_eq]
@[simp] theorem Place.evalVerdict_trimDue (p : Place) (e : Env) : (p.evalVerdict e).trimDue = p.trimDue := by rw [Place.evalVerdict_eq]
@[simp] theorem Place.evalVerdict_stage (p : Place) (e : Env) : (p.evalVerdict e).stage = p.stage := by rw [Place.evalVerdict_eq]
@[simp] theorem Place.evalVerdict_timer (p : Place) (e : Env) : (p.evalVerdict e).timer = p.timer := by rw [Place.evalVerdict_eq]
@[simp] theorem Place.evalVerdict_fastened (p : Place) (e : Env) : (p.evalVerdict e).fastened = p.fastened := by rw [Place.evalVerdict_eq]
@[simp] theorem Place.evalVerdict_policy (p : Place) (e : Env) : (p.evalVerdict e).policy = p.policy := by rw [Place.evalVerdict_eq]
@[simp] theorem Place.evalVerdict_live (p : Place) (e : Env) : (p.evalVerdict e).live = p.live := by rw [Place.evalVerdict_eq]
@[simp] theorem Place.evalVerdict_sticky (p : Place) (e : Env) : (p.evalVerdict e).sticky = p.sticky := by rw [Place.evalVerdict_eq]

/-! ### persist -/

@[simp] theorem Place.persist_id (p : Place) (e : Env) (c : Class) : (p.persist e c).id = p.id := by rw [Place.persist_eq]
@[simp] theorem Place.persist_total (p : Place) (e : Env) (c : Class) : (p.persist e c).total = p.total := by rw [Place.persist_eq]
@[simp] theorem Place.persist_atLeast (p : Place) (e : Env) (c : Class) : (p.persist e c).atLeast = p.atLeast := by rw [Place.persist_eq]
@[simp] theorem Place.persist_degraded (p : Place) (e : Env) (c : Class) : (p.persist e c).degraded = p.degraded := by rw [Place.persist_eq]
@[simp] theorem Place.persist_conc (p : Place) (e : Env) (c : Class) : (p.persist e c).conc = p.conc := by rw [Place.persist_eq]
@[simp] theorem Place.persist_filter (p : Place) (e : Env) (c : Class) : (p.persist e c).filter = p.filter := by rw [Place.persist_eq]
@[simp] theorem Place.persist_buckle (p : Place) (e : Env) (c : Class) : (p.persist e c).buckle = p.buckle := by rw [Place.persist_eq]
@[simp] theorem Place.persist_leftAnchor (p : Place) (e : Env) (c : Class) : (p.persist e c).leftAnchor = p.leftAnchor := by rw [Place.persist_eq]
@[simp] theorem Place.persist_rightAnchor (p : Place) (e : Env) (c : Class) : (p.persist e c).rightAnchor = p.rightAnchor := by rw [Place.persist_eq]
@[simp] theorem Place.persist_partialCount (p : Place) (e : Env) (c : Class) : (p.persist e c).partialCount = p.partialCount := by rw [Place.persist_eq]
@[simp] theorem Place.persist_age (p : Place) (e : Env) (c : Class) : (p.persist e c).age = p.age := by rw [Place.persist_eq]
@[simp] theorem Place.persist_joinStamp (p : Place) (e : Env) (c : Class) : (p.persist e c).joinStamp = p.joinStamp := by rw [Place.persist_eq]
@[simp] theorem Place.persist_fresh (p : Place) (e : Env) (c : Class) : (p.persist e c).fresh = p.fresh := by rw [Place.persist_eq]
@[simp] theorem Place.persist_verdict (p : Place) (e : Env) (c : Class) : (p.persist e c).verdict = p.verdict := by rw [Place.persist_eq]
@[simp] theorem Place.persist_refZeros (p : Place) (e : Env) (c : Class) : (p.persist e c).refZeros = p.refZeros := by rw [Place.persist_eq]
@[simp] theorem Place.persist_trims (p : Place) (e : Env) (c : Class) : (p.persist e c).trims = p.trims := by rw [Place.persist_eq]
@[simp] theorem Place.persist_cal (p : Place) (e : Env) (c : Class) : (p.persist e c).cal = p.cal := by rw [Place.persist_eq]
@[simp] theorem Place.persist_stage (p : Place) (e : Env) (c : Class) : (p.persist e c).stage = p.stage := by rw [Place.persist_eq]
@[simp] theorem Place.persist_timer (p : Place) (e : Env) (c : Class) : (p.persist e c).timer = p.timer := by rw [Place.persist_eq]
@[simp] theorem Place.persist_fastened (p : Place) (e : Env) (c : Class) : (p.persist e c).fastened = p.fastened := by rw [Place.persist_eq]
@[simp] theorem Place.persist_policy (p : Place) (e : Env) (c : Class) : (p.persist e c).policy = p.policy := by rw [Place.persist_eq]
@[simp] theorem Place.persist_live (p : Place) (e : Env) (c : Class) : (p.persist e c).live = p.live := by rw [Place.persist_eq]
@[simp] theorem Place.persist_sticky (p : Place) (e : Env) (c : Class) : (p.persist e c).sticky = p.sticky := by rw [Place.persist_eq]

/-! ### passEvaluation -/

@[simp] theorem Place.passEvaluation_id (p : Place) (e : Env) : (p.passEvaluation e).id = p.id := by rw [Place.passEvaluation_eq]
@[simp] theorem Place.passEvaluation_total (p : Place) (e : Env) : (p.passEvaluation e).total = p.total := by rw [Place.passEvaluation_eq]
@[simp] theorem Place.passEvaluation_atLeast (p : Place) (e : Env) : (p.passEvaluation e).atLeast = p.atLeast := by rw [Place.passEvaluation_eq]
@[simp] theorem Place.passEvaluation_degraded (p : Place) (e : Env) : (p.passEvaluation e).degraded = p.degraded := by rw [Place.passEvaluation_eq]
@[simp] theorem Place.passEvaluation_conc (p : Place) (e : Env) : (p.passEvaluation e).conc = p.conc := by rw [Place.passEvaluation_eq]
@[simp] theorem Place.passEvaluation_filter (p : Place) (e : Env) : (p.passEvaluation e).filter = p.filter := by rw [Place.passEvaluation_eq]
@[simp] theorem Place.passEvaluation_buckle (p : Place) (e : Env) : (p.passEvaluation e).buckle = p.buckle := by rw [Place.passEvaluation_eq]
@[simp] theorem Place.passEvaluation_leftAnchor (p : Place) (e : Env) : (p.passEvaluation e).leftAnchor = p.leftAnchor := by rw [Place.passEvaluation_eq]
@[simp] theorem Place.passEvaluation_rightAnchor (p : Place) (e : Env) : (p.passEvaluation e).rightAnchor = p.rightAnchor := by rw [Place.passEvaluation_eq]
@[simp] theorem Place.passEvaluation_partialCount (p : Place) (e : Env) : (p.passEvaluation e).partialCount = p.partialCount := by rw [Place.passEvaluation_eq]
@[simp] theorem Place.passEvaluation_age (p : Place) (e : Env) : (p.passEvaluation e).age = p.age := by rw [Place.passEvaluation_eq]
@[simp] theorem Place.passEvaluation_joinStamp (p : Place) (e : Env) : (p.passEvaluation e).joinStamp = p.joinStamp := by rw [Place.passEvaluation_eq]
@[simp] theorem Place.passEvaluation_fresh (p : Place) (e : Env) : (p.passEvaluation e).fresh = p.fresh := by rw [Place.passEvaluation_eq]
@[simp] theorem Place.passEvaluation_verdict (p : Place) (e : Env) : (p.passEvaluation e).verdict = p.verdict := by rw [Place.passEvaluation_eq]
@[simp] theorem Place.passEvaluation_refZeros (p : Place) (e : Env) : (p.passEvaluation e).refZeros = p.refZeros := by rw [Place.passEvaluation_eq]
@[simp] theorem Place.passEvaluation_trims (p : Place) (e : Env) : (p.passEvaluation e).trims = p.trims := by rw [Place.passEvaluation_eq]
@[simp] theorem Place.passEvaluation_cal (p : Place) (e : Env) : (p.passEvaluation e).cal = p.cal := by rw [Place.passEvaluation_eq]
@[simp] theorem Place.passEvaluation_stage (p : Place) (e : Env) : (p.passEvaluation e).stage = p.stage := by rw [Place.passEvaluation_eq]
@[simp] theorem Place.passEvaluation_timer (p : Place) (e : Env) : (p.passEvaluation e).timer = p.timer := by rw [Place.passEvaluation_eq]
@[simp] theorem Place.passEvaluation_fastened (p : Place) (e : Env) : (p.passEvaluation e).fastened = p.fastened := by rw [Place.passEvaluation_eq]
@[simp] theorem Place.passEvaluation_policy (p : Place) (e : Env) : (p.passEvaluation e).policy = p.policy := by rw [Place.passEvaluation_eq]
@[simp] theorem Place.passEvaluation_live (p : Place) (e : Env) : (p.passEvaluation e).live = p.live := by rw [Place.passEvaluation_eq]
@[simp] theorem Place.passEvaluation_sticky (p : Place) (e : Env) : (p.passEvaluation e).sticky = p.sticky := by rw [Place.passEvaluation_eq]

/-! ### rowOneEvaluation -/

@[simp] theorem Place.rowOneEvaluation_id (p : Place) (e : Env) : (p.rowOneEvaluation e).id = p.id := by rw [Place.rowOneEvaluation_eq]
@[simp] theorem Place.rowOneEvaluation_total (p : Place) (e : Env) : (p.rowOneEvaluation e).total = p.total := by rw [Place.rowOneEvaluation_eq]
@[simp] theorem Place.rowOneEvaluation_atLeast (p : Place) (e : Env) : (p.rowOneEvaluation e).atLeast = p.atLeast := by rw [Place.rowOneEvaluation_eq]
@[simp] theorem Place.rowOneEvaluation_degraded (p : Place) (e : Env) : (p.rowOneEvaluation e).degraded = p.degraded := by rw [Place.rowOneEvaluation_eq]
@[simp] theorem Place.rowOneEvaluation_conc (p : Place) (e : Env) : (p.rowOneEvaluation e).conc = p.conc := by rw [Place.rowOneEvaluation_eq]
@[simp] theorem Place.rowOneEvaluation_filter (p : Place) (e : Env) : (p.rowOneEvaluation e).filter = p.filter := by rw [Place.rowOneEvaluation_eq]
@[simp] theorem Place.rowOneEvaluation_buckle (p : Place) (e : Env) : (p.rowOneEvaluation e).buckle = p.buckle := by rw [Place.rowOneEvaluation_eq]
@[simp] theorem Place.rowOneEvaluation_leftAnchor (p : Place) (e : Env) : (p.rowOneEvaluation e).leftAnchor = p.leftAnchor := by rw [Place.rowOneEvaluation_eq]
@[simp] theorem Place.rowOneEvaluation_rightAnchor (p : Place) (e : Env) : (p.rowOneEvaluation e).rightAnchor = p.rightAnchor := by rw [Place.rowOneEvaluation_eq]
@[simp] theorem Place.rowOneEvaluation_partialCount (p : Place) (e : Env) : (p.rowOneEvaluation e).partialCount = p.partialCount := by rw [Place.rowOneEvaluation_eq]
@[simp] theorem Place.rowOneEvaluation_age (p : Place) (e : Env) : (p.rowOneEvaluation e).age = p.age := by rw [Place.rowOneEvaluation_eq]
@[simp] theorem Place.rowOneEvaluation_joinStamp (p : Place) (e : Env) : (p.rowOneEvaluation e).joinStamp = p.joinStamp := by rw [Place.rowOneEvaluation_eq]
@[simp] theorem Place.rowOneEvaluation_fresh (p : Place) (e : Env) : (p.rowOneEvaluation e).fresh = p.fresh := by rw [Place.rowOneEvaluation_eq]
@[simp] theorem Place.rowOneEvaluation_verdict (p : Place) (e : Env) : (p.rowOneEvaluation e).verdict = p.verdict := by rw [Place.rowOneEvaluation_eq]
@[simp] theorem Place.rowOneEvaluation_refZeros (p : Place) (e : Env) : (p.rowOneEvaluation e).refZeros = p.refZeros := by rw [Place.rowOneEvaluation_eq]
@[simp] theorem Place.rowOneEvaluation_trims (p : Place) (e : Env) : (p.rowOneEvaluation e).trims = p.trims := by rw [Place.rowOneEvaluation_eq]
@[simp] theorem Place.rowOneEvaluation_cal (p : Place) (e : Env) : (p.rowOneEvaluation e).cal = p.cal := by rw [Place.rowOneEvaluation_eq]
@[simp] theorem Place.rowOneEvaluation_stage (p : Place) (e : Env) : (p.rowOneEvaluation e).stage = p.stage := by rw [Place.rowOneEvaluation_eq]
@[simp] theorem Place.rowOneEvaluation_timer (p : Place) (e : Env) : (p.rowOneEvaluation e).timer = p.timer := by rw [Place.rowOneEvaluation_eq]
@[simp] theorem Place.rowOneEvaluation_fastened (p : Place) (e : Env) : (p.rowOneEvaluation e).fastened = p.fastened := by rw [Place.rowOneEvaluation_eq]
@[simp] theorem Place.rowOneEvaluation_policy (p : Place) (e : Env) : (p.rowOneEvaluation e).policy = p.policy := by rw [Place.rowOneEvaluation_eq]
@[simp] theorem Place.rowOneEvaluation_live (p : Place) (e : Env) : (p.rowOneEvaluation e).live = p.live := by rw [Place.rowOneEvaluation_eq]
@[simp] theorem Place.rowOneEvaluation_sticky (p : Place) (e : Env) : (p.rowOneEvaluation e).sticky = p.sticky := by rw [Place.rowOneEvaluation_eq]

/-! ### dropPending -/

@[simp] theorem Place.dropPending_id (p : Place) : (p.dropPending).id = p.id := rfl
@[simp] theorem Place.dropPending_total (p : Place) : (p.dropPending).total = p.total := rfl
@[simp] theorem Place.dropPending_atLeast (p : Place) : (p.dropPending).atLeast = p.atLeast := rfl
@[simp] theorem Place.dropPending_degraded (p : Place) : (p.dropPending).degraded = p.degraded := rfl
@[simp] theorem Place.dropPending_conc (p : Place) : (p.dropPending).conc = p.conc := rfl
@[simp] theorem Place.dropPending_filter (p : Place) : (p.dropPending).filter = p.filter := rfl
@[simp] theorem Place.dropPending_buckle (p : Place) : (p.dropPending).buckle = p.buckle := rfl
@[simp] theorem Place.dropPending_leftAnchor (p : Place) : (p.dropPending).leftAnchor = p.leftAnchor := rfl
@[simp] theorem Place.dropPending_rightAnchor (p : Place) : (p.dropPending).rightAnchor = p.rightAnchor := rfl
@[simp] theorem Place.dropPending_partialCount (p : Place) : (p.dropPending).partialCount = p.partialCount := rfl
@[simp] theorem Place.dropPending_age (p : Place) : (p.dropPending).age = p.age := rfl
@[simp] theorem Place.dropPending_joinStamp (p : Place) : (p.dropPending).joinStamp = p.joinStamp := rfl
@[simp] theorem Place.dropPending_fresh (p : Place) : (p.dropPending).fresh = p.fresh := rfl
@[simp] theorem Place.dropPending_reported (p : Place) : (p.dropPending).reported = p.reported := rfl
@[simp] theorem Place.dropPending_verdict (p : Place) : (p.dropPending).verdict = p.verdict := rfl
@[simp] theorem Place.dropPending_refZeros (p : Place) : (p.dropPending).refZeros = p.refZeros := rfl
@[simp] theorem Place.dropPending_trims (p : Place) : (p.dropPending).trims = p.trims := rfl
@[simp] theorem Place.dropPending_cal (p : Place) : (p.dropPending).cal = p.cal := rfl
@[simp] theorem Place.dropPending_emptySince (p : Place) : (p.dropPending).emptySince = p.emptySince := rfl
@[simp] theorem Place.dropPending_nextTrim (p : Place) : (p.dropPending).nextTrim = p.nextTrim := rfl
@[simp] theorem Place.dropPending_trimDue (p : Place) : (p.dropPending).trimDue = p.trimDue := rfl
@[simp] theorem Place.dropPending_stage (p : Place) : (p.dropPending).stage = p.stage := rfl
@[simp] theorem Place.dropPending_timer (p : Place) : (p.dropPending).timer = p.timer := rfl
@[simp] theorem Place.dropPending_fastened (p : Place) : (p.dropPending).fastened = p.fastened := rfl
@[simp] theorem Place.dropPending_policy (p : Place) : (p.dropPending).policy = p.policy := rfl
@[simp] theorem Place.dropPending_live (p : Place) : (p.dropPending).live = p.live := rfl
@[simp] theorem Place.dropPending_sticky (p : Place) : (p.dropPending).sticky = p.sticky := rfl
@[simp] theorem Place.dropPending_marks (p : Place) : (p.dropPending).marks = p.marks := rfl

/-! ### noteFastened -/

@[simp] theorem Place.noteFastened_id (p : Place) (e : Env) : (p.noteFastened e).id = p.id := by rw [Place.noteFastened_eq]
@[simp] theorem Place.noteFastened_total (p : Place) (e : Env) : (p.noteFastened e).total = p.total := by rw [Place.noteFastened_eq]
@[simp] theorem Place.noteFastened_atLeast (p : Place) (e : Env) : (p.noteFastened e).atLeast = p.atLeast := by rw [Place.noteFastened_eq]
@[simp] theorem Place.noteFastened_degraded (p : Place) (e : Env) : (p.noteFastened e).degraded = p.degraded := by rw [Place.noteFastened_eq]
@[simp] theorem Place.noteFastened_conc (p : Place) (e : Env) : (p.noteFastened e).conc = p.conc := by rw [Place.noteFastened_eq]
@[simp] theorem Place.noteFastened_filter (p : Place) (e : Env) : (p.noteFastened e).filter = p.filter := by rw [Place.noteFastened_eq]
@[simp] theorem Place.noteFastened_buckle (p : Place) (e : Env) : (p.noteFastened e).buckle = p.buckle := by rw [Place.noteFastened_eq]
@[simp] theorem Place.noteFastened_leftAnchor (p : Place) (e : Env) : (p.noteFastened e).leftAnchor = p.leftAnchor := by rw [Place.noteFastened_eq]
@[simp] theorem Place.noteFastened_rightAnchor (p : Place) (e : Env) : (p.noteFastened e).rightAnchor = p.rightAnchor := by rw [Place.noteFastened_eq]
@[simp] theorem Place.noteFastened_partialCount (p : Place) (e : Env) : (p.noteFastened e).partialCount = p.partialCount := by rw [Place.noteFastened_eq]
@[simp] theorem Place.noteFastened_age (p : Place) (e : Env) : (p.noteFastened e).age = p.age := by rw [Place.noteFastened_eq]
@[simp] theorem Place.noteFastened_joinStamp (p : Place) (e : Env) : (p.noteFastened e).joinStamp = p.joinStamp := by rw [Place.noteFastened_eq]
@[simp] theorem Place.noteFastened_fresh (p : Place) (e : Env) : (p.noteFastened e).fresh = p.fresh := by rw [Place.noteFastened_eq]
@[simp] theorem Place.noteFastened_reported (p : Place) (e : Env) : (p.noteFastened e).reported = p.reported := by rw [Place.noteFastened_eq]
@[simp] theorem Place.noteFastened_pendingClass (p : Place) (e : Env) : (p.noteFastened e).pendingClass = p.pendingClass := by rw [Place.noteFastened_eq]
@[simp] theorem Place.noteFastened_count (p : Place) (e : Env) : (p.noteFastened e).count = p.count := by rw [Place.noteFastened_eq]
@[simp] theorem Place.noteFastened_verdict (p : Place) (e : Env) : (p.noteFastened e).verdict = p.verdict := by rw [Place.noteFastened_eq]
@[simp] theorem Place.noteFastened_refZeros (p : Place) (e : Env) : (p.noteFastened e).refZeros = p.refZeros := by rw [Place.noteFastened_eq]
@[simp] theorem Place.noteFastened_trims (p : Place) (e : Env) : (p.noteFastened e).trims = p.trims := by rw [Place.noteFastened_eq]
@[simp] theorem Place.noteFastened_cal (p : Place) (e : Env) : (p.noteFastened e).cal = p.cal := by rw [Place.noteFastened_eq]
@[simp] theorem Place.noteFastened_emptySince (p : Place) (e : Env) : (p.noteFastened e).emptySince = p.emptySince := by rw [Place.noteFastened_eq]
@[simp] theorem Place.noteFastened_nextTrim (p : Place) (e : Env) : (p.noteFastened e).nextTrim = p.nextTrim := by rw [Place.noteFastened_eq]
@[simp] theorem Place.noteFastened_trimDue (p : Place) (e : Env) : (p.noteFastened e).trimDue = p.trimDue := by rw [Place.noteFastened_eq]
@[simp] theorem Place.noteFastened_stage (p : Place) (e : Env) : (p.noteFastened e).stage = p.stage := by rw [Place.noteFastened_eq]
@[simp] theorem Place.noteFastened_timer (p : Place) (e : Env) : (p.noteFastened e).timer = p.timer := by rw [Place.noteFastened_eq]
@[simp] theorem Place.noteFastened_policy (p : Place) (e : Env) : (p.noteFastened e).policy = p.policy := by rw [Place.noteFastened_eq]
@[simp] theorem Place.noteFastened_live (p : Place) (e : Env) : (p.noteFastened e).live = p.live := by rw [Place.noteFastened_eq]
@[simp] theorem Place.noteFastened_sticky (p : Place) (e : Env) : (p.noteFastened e).sticky = p.sticky := by rw [Place.noteFastened_eq]
@[simp] theorem Place.noteFastened_marks (p : Place) (e : Env) : (p.noteFastened e).marks = p.marks := by rw [Place.noteFastened_eq]

/-! ### noteBelt -/

@[simp] theorem Place.noteBelt_id (p : Place) (b : Reading) : (p.noteBelt b).id = p.id := by rw [Place.noteBelt_eq]
@[simp] theorem Place.noteBelt_total (p : Place) (b : Reading) : (p.noteBelt b).total = p.total := by rw [Place.noteBelt_eq]
@[simp] theorem Place.noteBelt_atLeast (p : Place) (b : Reading) : (p.noteBelt b).atLeast = p.atLeast := by rw [Place.noteBelt_eq]
@[simp] theorem Place.noteBelt_degraded (p : Place) (b : Reading) : (p.noteBelt b).degraded = p.degraded := by rw [Place.noteBelt_eq]
@[simp] theorem Place.noteBelt_conc (p : Place) (b : Reading) : (p.noteBelt b).conc = p.conc := by rw [Place.noteBelt_eq]
@[simp] theorem Place.noteBelt_filter (p : Place) (b : Reading) : (p.noteBelt b).filter = p.filter := by rw [Place.noteBelt_eq]
@[simp] theorem Place.noteBelt_buckle (p : Place) (b : Reading) : (p.noteBelt b).buckle = p.buckle := by rw [Place.noteBelt_eq]
@[simp] theorem Place.noteBelt_leftAnchor (p : Place) (b : Reading) : (p.noteBelt b).leftAnchor = p.leftAnchor := by rw [Place.noteBelt_eq]
@[simp] theorem Place.noteBelt_rightAnchor (p : Place) (b : Reading) : (p.noteBelt b).rightAnchor = p.rightAnchor := by rw [Place.noteBelt_eq]
@[simp] theorem Place.noteBelt_partialCount (p : Place) (b : Reading) : (p.noteBelt b).partialCount = p.partialCount := by rw [Place.noteBelt_eq]
@[simp] theorem Place.noteBelt_age (p : Place) (b : Reading) : (p.noteBelt b).age = p.age := by rw [Place.noteBelt_eq]
@[simp] theorem Place.noteBelt_joinStamp (p : Place) (b : Reading) : (p.noteBelt b).joinStamp = p.joinStamp := by rw [Place.noteBelt_eq]
@[simp] theorem Place.noteBelt_fresh (p : Place) (b : Reading) : (p.noteBelt b).fresh = p.fresh := by rw [Place.noteBelt_eq]
@[simp] theorem Place.noteBelt_reported (p : Place) (b : Reading) : (p.noteBelt b).reported = p.reported := by rw [Place.noteBelt_eq]
@[simp] theorem Place.noteBelt_pendingClass (p : Place) (b : Reading) : (p.noteBelt b).pendingClass = p.pendingClass := by rw [Place.noteBelt_eq]
@[simp] theorem Place.noteBelt_count (p : Place) (b : Reading) : (p.noteBelt b).count = p.count := by rw [Place.noteBelt_eq]
@[simp] theorem Place.noteBelt_verdict (p : Place) (b : Reading) : (p.noteBelt b).verdict = p.verdict := by rw [Place.noteBelt_eq]
@[simp] theorem Place.noteBelt_refZeros (p : Place) (b : Reading) : (p.noteBelt b).refZeros = p.refZeros := by rw [Place.noteBelt_eq]
@[simp] theorem Place.noteBelt_trims (p : Place) (b : Reading) : (p.noteBelt b).trims = p.trims := by rw [Place.noteBelt_eq]
@[simp] theorem Place.noteBelt_cal (p : Place) (b : Reading) : (p.noteBelt b).cal = p.cal := by rw [Place.noteBelt_eq]
@[simp] theorem Place.noteBelt_emptySince (p : Place) (b : Reading) : (p.noteBelt b).emptySince = p.emptySince := by rw [Place.noteBelt_eq]
@[simp] theorem Place.noteBelt_nextTrim (p : Place) (b : Reading) : (p.noteBelt b).nextTrim = p.nextTrim := by rw [Place.noteBelt_eq]
@[simp] theorem Place.noteBelt_trimDue (p : Place) (b : Reading) : (p.noteBelt b).trimDue = p.trimDue := by rw [Place.noteBelt_eq]
@[simp] theorem Place.noteBelt_stage (p : Place) (b : Reading) : (p.noteBelt b).stage = p.stage := by rw [Place.noteBelt_eq]
@[simp] theorem Place.noteBelt_timer (p : Place) (b : Reading) : (p.noteBelt b).timer = p.timer := by rw [Place.noteBelt_eq]
@[simp] theorem Place.noteBelt_fastened (p : Place) (b : Reading) : (p.noteBelt b).fastened = p.fastened := by rw [Place.noteBelt_eq]
@[simp] theorem Place.noteBelt_policy (p : Place) (b : Reading) : (p.noteBelt b).policy = p.policy := by rw [Place.noteBelt_eq]
@[simp] theorem Place.noteBelt_live (p : Place) (b : Reading) : (p.noteBelt b).live = p.live := by rw [Place.noteBelt_eq]
@[simp] theorem Place.noteBelt_sticky (p : Place) (b : Reading) : (p.noteBelt b).sticky = p.sticky := by rw [Place.noteBelt_eq]

/-! ### loadFaults -/

@[simp] theorem Place.loadFaults_id (p : Place) (v : CalValues) (r : Readings) : (p.loadFaults v r).id = p.id := by rw [Place.loadFaults_eq]
@[simp] theorem Place.loadFaults_total (p : Place) (v : CalValues) (r : Readings) : (p.loadFaults v r).total = p.total := by rw [Place.loadFaults_eq]
@[simp] theorem Place.loadFaults_atLeast (p : Place) (v : CalValues) (r : Readings) : (p.loadFaults v r).atLeast = p.atLeast := by rw [Place.loadFaults_eq]
@[simp] theorem Place.loadFaults_degraded (p : Place) (v : CalValues) (r : Readings) : (p.loadFaults v r).degraded = p.degraded := by rw [Place.loadFaults_eq]
@[simp] theorem Place.loadFaults_conc (p : Place) (v : CalValues) (r : Readings) : (p.loadFaults v r).conc = p.conc := by rw [Place.loadFaults_eq]
@[simp] theorem Place.loadFaults_filter (p : Place) (v : CalValues) (r : Readings) : (p.loadFaults v r).filter = p.filter := by rw [Place.loadFaults_eq]
@[simp] theorem Place.loadFaults_buckle (p : Place) (v : CalValues) (r : Readings) : (p.loadFaults v r).buckle = p.buckle := by rw [Place.loadFaults_eq]
@[simp] theorem Place.loadFaults_leftAnchor (p : Place) (v : CalValues) (r : Readings) : (p.loadFaults v r).leftAnchor = p.leftAnchor := by rw [Place.loadFaults_eq]
@[simp] theorem Place.loadFaults_rightAnchor (p : Place) (v : CalValues) (r : Readings) : (p.loadFaults v r).rightAnchor = p.rightAnchor := by rw [Place.loadFaults_eq]
@[simp] theorem Place.loadFaults_partialCount (p : Place) (v : CalValues) (r : Readings) : (p.loadFaults v r).partialCount = p.partialCount := by rw [Place.loadFaults_eq]
@[simp] theorem Place.loadFaults_age (p : Place) (v : CalValues) (r : Readings) : (p.loadFaults v r).age = p.age := by rw [Place.loadFaults_eq]
@[simp] theorem Place.loadFaults_joinStamp (p : Place) (v : CalValues) (r : Readings) : (p.loadFaults v r).joinStamp = p.joinStamp := by rw [Place.loadFaults_eq]
@[simp] theorem Place.loadFaults_fresh (p : Place) (v : CalValues) (r : Readings) : (p.loadFaults v r).fresh = p.fresh := by rw [Place.loadFaults_eq]
@[simp] theorem Place.loadFaults_reported (p : Place) (v : CalValues) (r : Readings) : (p.loadFaults v r).reported = p.reported := by rw [Place.loadFaults_eq]
@[simp] theorem Place.loadFaults_pendingClass (p : Place) (v : CalValues) (r : Readings) : (p.loadFaults v r).pendingClass = p.pendingClass := by rw [Place.loadFaults_eq]
@[simp] theorem Place.loadFaults_count (p : Place) (v : CalValues) (r : Readings) : (p.loadFaults v r).count = p.count := by rw [Place.loadFaults_eq]
@[simp] theorem Place.loadFaults_verdict (p : Place) (v : CalValues) (r : Readings) : (p.loadFaults v r).verdict = p.verdict := by rw [Place.loadFaults_eq]
@[simp] theorem Place.loadFaults_refZeros (p : Place) (v : CalValues) (r : Readings) : (p.loadFaults v r).refZeros = p.refZeros := by rw [Place.loadFaults_eq]
@[simp] theorem Place.loadFaults_trims (p : Place) (v : CalValues) (r : Readings) : (p.loadFaults v r).trims = p.trims := by rw [Place.loadFaults_eq]
@[simp] theorem Place.loadFaults_cal (p : Place) (v : CalValues) (r : Readings) : (p.loadFaults v r).cal = p.cal := by rw [Place.loadFaults_eq]
@[simp] theorem Place.loadFaults_emptySince (p : Place) (v : CalValues) (r : Readings) : (p.loadFaults v r).emptySince = p.emptySince := by rw [Place.loadFaults_eq]
@[simp] theorem Place.loadFaults_nextTrim (p : Place) (v : CalValues) (r : Readings) : (p.loadFaults v r).nextTrim = p.nextTrim := by rw [Place.loadFaults_eq]
@[simp] theorem Place.loadFaults_trimDue (p : Place) (v : CalValues) (r : Readings) : (p.loadFaults v r).trimDue = p.trimDue := by rw [Place.loadFaults_eq]
@[simp] theorem Place.loadFaults_stage (p : Place) (v : CalValues) (r : Readings) : (p.loadFaults v r).stage = p.stage := by rw [Place.loadFaults_eq]
@[simp] theorem Place.loadFaults_timer (p : Place) (v : CalValues) (r : Readings) : (p.loadFaults v r).timer = p.timer := by rw [Place.loadFaults_eq]
@[simp] theorem Place.loadFaults_fastened (p : Place) (v : CalValues) (r : Readings) : (p.loadFaults v r).fastened = p.fastened := by rw [Place.loadFaults_eq]
@[simp] theorem Place.loadFaults_policy (p : Place) (v : CalValues) (r : Readings) : (p.loadFaults v r).policy = p.policy := by rw [Place.loadFaults_eq]

/-! ### trimStep -/

@[simp] theorem Place.trimStep_id (p : Place) (v : CalValues) (r : Readings) : (p.trimStep v r).id = p.id := by rw [Place.trimStep_eq]
@[simp] theorem Place.trimStep_total (p : Place) (v : CalValues) (r : Readings) : (p.trimStep v r).total = p.total := by rw [Place.trimStep_eq]
@[simp] theorem Place.trimStep_atLeast (p : Place) (v : CalValues) (r : Readings) : (p.trimStep v r).atLeast = p.atLeast := by rw [Place.trimStep_eq]
@[simp] theorem Place.trimStep_degraded (p : Place) (v : CalValues) (r : Readings) : (p.trimStep v r).degraded = p.degraded := by rw [Place.trimStep_eq]
@[simp] theorem Place.trimStep_conc (p : Place) (v : CalValues) (r : Readings) : (p.trimStep v r).conc = p.conc := by rw [Place.trimStep_eq]
@[simp] theorem Place.trimStep_filter (p : Place) (v : CalValues) (r : Readings) : (p.trimStep v r).filter = p.filter := by rw [Place.trimStep_eq]
@[simp] theorem Place.trimStep_buckle (p : Place) (v : CalValues) (r : Readings) : (p.trimStep v r).buckle = p.buckle := by rw [Place.trimStep_eq]
@[simp] theorem Place.trimStep_leftAnchor (p : Place) (v : CalValues) (r : Readings) : (p.trimStep v r).leftAnchor = p.leftAnchor := by rw [Place.trimStep_eq]
@[simp] theorem Place.trimStep_rightAnchor (p : Place) (v : CalValues) (r : Readings) : (p.trimStep v r).rightAnchor = p.rightAnchor := by rw [Place.trimStep_eq]
@[simp] theorem Place.trimStep_partialCount (p : Place) (v : CalValues) (r : Readings) : (p.trimStep v r).partialCount = p.partialCount := by rw [Place.trimStep_eq]
@[simp] theorem Place.trimStep_age (p : Place) (v : CalValues) (r : Readings) : (p.trimStep v r).age = p.age := by rw [Place.trimStep_eq]
@[simp] theorem Place.trimStep_joinStamp (p : Place) (v : CalValues) (r : Readings) : (p.trimStep v r).joinStamp = p.joinStamp := by rw [Place.trimStep_eq]
@[simp] theorem Place.trimStep_fresh (p : Place) (v : CalValues) (r : Readings) : (p.trimStep v r).fresh = p.fresh := by rw [Place.trimStep_eq]
@[simp] theorem Place.trimStep_reported (p : Place) (v : CalValues) (r : Readings) : (p.trimStep v r).reported = p.reported := by rw [Place.trimStep_eq]
@[simp] theorem Place.trimStep_pendingClass (p : Place) (v : CalValues) (r : Readings) : (p.trimStep v r).pendingClass = p.pendingClass := by rw [Place.trimStep_eq]
@[simp] theorem Place.trimStep_count (p : Place) (v : CalValues) (r : Readings) : (p.trimStep v r).count = p.count := by rw [Place.trimStep_eq]
@[simp] theorem Place.trimStep_verdict (p : Place) (v : CalValues) (r : Readings) : (p.trimStep v r).verdict = p.verdict := by rw [Place.trimStep_eq]
@[simp] theorem Place.trimStep_refZeros (p : Place) (v : CalValues) (r : Readings) : (p.trimStep v r).refZeros = p.refZeros := by rw [Place.trimStep_eq]
@[simp] theorem Place.trimStep_cal (p : Place) (v : CalValues) (r : Readings) : (p.trimStep v r).cal = p.cal := by rw [Place.trimStep_eq]
@[simp] theorem Place.trimStep_emptySince (p : Place) (v : CalValues) (r : Readings) : (p.trimStep v r).emptySince = p.emptySince := by rw [Place.trimStep_eq]
@[simp] theorem Place.trimStep_nextTrim (p : Place) (v : CalValues) (r : Readings) : (p.trimStep v r).nextTrim = p.nextTrim := by rw [Place.trimStep_eq]
@[simp] theorem Place.trimStep_stage (p : Place) (v : CalValues) (r : Readings) : (p.trimStep v r).stage = p.stage := by rw [Place.trimStep_eq]
@[simp] theorem Place.trimStep_timer (p : Place) (v : CalValues) (r : Readings) : (p.trimStep v r).timer = p.timer := by rw [Place.trimStep_eq]
@[simp] theorem Place.trimStep_fastened (p : Place) (v : CalValues) (r : Readings) : (p.trimStep v r).fastened = p.fastened := by rw [Place.trimStep_eq]
@[simp] theorem Place.trimStep_policy (p : Place) (v : CalValues) (r : Readings) : (p.trimStep v r).policy = p.policy := by rw [Place.trimStep_eq]

/-! ### driftTrim -/

@[simp] theorem Place.driftTrim_id (p : Place) (e : Env) (v : CalValues) (r : Readings) : (p.driftTrim e v r).id = p.id := by rw [Place.driftTrim_eq]
@[simp] theorem Place.driftTrim_total (p : Place) (e : Env) (v : CalValues) (r : Readings) : (p.driftTrim e v r).total = p.total := by rw [Place.driftTrim_eq]
@[simp] theorem Place.driftTrim_atLeast (p : Place) (e : Env) (v : CalValues) (r : Readings) : (p.driftTrim e v r).atLeast = p.atLeast := by rw [Place.driftTrim_eq]
@[simp] theorem Place.driftTrim_degraded (p : Place) (e : Env) (v : CalValues) (r : Readings) : (p.driftTrim e v r).degraded = p.degraded := by rw [Place.driftTrim_eq]
@[simp] theorem Place.driftTrim_conc (p : Place) (e : Env) (v : CalValues) (r : Readings) : (p.driftTrim e v r).conc = p.conc := by rw [Place.driftTrim_eq]
@[simp] theorem Place.driftTrim_filter (p : Place) (e : Env) (v : CalValues) (r : Readings) : (p.driftTrim e v r).filter = p.filter := by rw [Place.driftTrim_eq]
@[simp] theorem Place.driftTrim_buckle (p : Place) (e : Env) (v : CalValues) (r : Readings) : (p.driftTrim e v r).buckle = p.buckle := by rw [Place.driftTrim_eq]
@[simp] theorem Place.driftTrim_leftAnchor (p : Place) (e : Env) (v : CalValues) (r : Readings) : (p.driftTrim e v r).leftAnchor = p.leftAnchor := by rw [Place.driftTrim_eq]
@[simp] theorem Place.driftTrim_rightAnchor (p : Place) (e : Env) (v : CalValues) (r : Readings) : (p.driftTrim e v r).rightAnchor = p.rightAnchor := by rw [Place.driftTrim_eq]
@[simp] theorem Place.driftTrim_partialCount (p : Place) (e : Env) (v : CalValues) (r : Readings) : (p.driftTrim e v r).partialCount = p.partialCount := by rw [Place.driftTrim_eq]
@[simp] theorem Place.driftTrim_age (p : Place) (e : Env) (v : CalValues) (r : Readings) : (p.driftTrim e v r).age = p.age := by rw [Place.driftTrim_eq]
@[simp] theorem Place.driftTrim_joinStamp (p : Place) (e : Env) (v : CalValues) (r : Readings) : (p.driftTrim e v r).joinStamp = p.joinStamp := by rw [Place.driftTrim_eq]
@[simp] theorem Place.driftTrim_fresh (p : Place) (e : Env) (v : CalValues) (r : Readings) : (p.driftTrim e v r).fresh = p.fresh := by rw [Place.driftTrim_eq]
@[simp] theorem Place.driftTrim_reported (p : Place) (e : Env) (v : CalValues) (r : Readings) : (p.driftTrim e v r).reported = p.reported := by rw [Place.driftTrim_eq]
@[simp] theorem Place.driftTrim_pendingClass (p : Place) (e : Env) (v : CalValues) (r : Readings) : (p.driftTrim e v r).pendingClass = p.pendingClass := by rw [Place.driftTrim_eq]
@[simp] theorem Place.driftTrim_count (p : Place) (e : Env) (v : CalValues) (r : Readings) : (p.driftTrim e v r).count = p.count := by rw [Place.driftTrim_eq]
@[simp] theorem Place.driftTrim_verdict (p : Place) (e : Env) (v : CalValues) (r : Readings) : (p.driftTrim e v r).verdict = p.verdict := by rw [Place.driftTrim_eq]
@[simp] theorem Place.driftTrim_refZeros (p : Place) (e : Env) (v : CalValues) (r : Readings) : (p.driftTrim e v r).refZeros = p.refZeros := by rw [Place.driftTrim_eq]
@[simp] theorem Place.driftTrim_cal (p : Place) (e : Env) (v : CalValues) (r : Readings) : (p.driftTrim e v r).cal = p.cal := by rw [Place.driftTrim_eq]
@[simp] theorem Place.driftTrim_emptySince (p : Place) (e : Env) (v : CalValues) (r : Readings) : (p.driftTrim e v r).emptySince = p.emptySince := by rw [Place.driftTrim_eq]
@[simp] theorem Place.driftTrim_nextTrim (p : Place) (e : Env) (v : CalValues) (r : Readings) : (p.driftTrim e v r).nextTrim = p.nextTrim := by rw [Place.driftTrim_eq]
@[simp] theorem Place.driftTrim_stage (p : Place) (e : Env) (v : CalValues) (r : Readings) : (p.driftTrim e v r).stage = p.stage := by rw [Place.driftTrim_eq]
@[simp] theorem Place.driftTrim_timer (p : Place) (e : Env) (v : CalValues) (r : Readings) : (p.driftTrim e v r).timer = p.timer := by rw [Place.driftTrim_eq]
@[simp] theorem Place.driftTrim_fastened (p : Place) (e : Env) (v : CalValues) (r : Readings) : (p.driftTrim e v r).fastened = p.fastened := by rw [Place.driftTrim_eq]
@[simp] theorem Place.driftTrim_policy (p : Place) (e : Env) (v : CalValues) (r : Readings) : (p.driftTrim e v r).policy = p.policy := by rw [Place.driftTrim_eq]

/-! ### restartTrim -/

@[simp] theorem Place.restartTrim_id (p : Place) (e : Env) : (p.restartTrim e).id = p.id := rfl
@[simp] theorem Place.restartTrim_total (p : Place) (e : Env) : (p.restartTrim e).total = p.total := rfl
@[simp] theorem Place.restartTrim_atLeast (p : Place) (e : Env) : (p.restartTrim e).atLeast = p.atLeast := rfl
@[simp] theorem Place.restartTrim_degraded (p : Place) (e : Env) : (p.restartTrim e).degraded = p.degraded := rfl
@[simp] theorem Place.restartTrim_conc (p : Place) (e : Env) : (p.restartTrim e).conc = p.conc := rfl
@[simp] theorem Place.restartTrim_filter (p : Place) (e : Env) : (p.restartTrim e).filter = p.filter := rfl
@[simp] theorem Place.restartTrim_buckle (p : Place) (e : Env) : (p.restartTrim e).buckle = p.buckle := rfl
@[simp] theorem Place.restartTrim_leftAnchor (p : Place) (e : Env) : (p.restartTrim e).leftAnchor = p.leftAnchor := rfl
@[simp] theorem Place.restartTrim_rightAnchor (p : Place) (e : Env) : (p.restartTrim e).rightAnchor = p.rightAnchor := rfl
@[simp] theorem Place.restartTrim_partialCount (p : Place) (e : Env) : (p.restartTrim e).partialCount = p.partialCount := rfl
@[simp] theorem Place.restartTrim_age (p : Place) (e : Env) : (p.restartTrim e).age = p.age := rfl
@[simp] theorem Place.restartTrim_joinStamp (p : Place) (e : Env) : (p.restartTrim e).joinStamp = p.joinStamp := rfl
@[simp] theorem Place.restartTrim_fresh (p : Place) (e : Env) : (p.restartTrim e).fresh = p.fresh := rfl
@[simp] theorem Place.restartTrim_reported (p : Place) (e : Env) : (p.restartTrim e).reported = p.reported := rfl
@[simp] theorem Place.restartTrim_pendingClass (p : Place) (e : Env) : (p.restartTrim e).pendingClass = p.pendingClass := rfl
@[simp] theorem Place.restartTrim_count (p : Place) (e : Env) : (p.restartTrim e).count = p.count := rfl
@[simp] theorem Place.restartTrim_verdict (p : Place) (e : Env) : (p.restartTrim e).verdict = p.verdict := rfl
@[simp] theorem Place.restartTrim_refZeros (p : Place) (e : Env) : (p.restartTrim e).refZeros = p.refZeros := rfl
@[simp] theorem Place.restartTrim_trims (p : Place) (e : Env) : (p.restartTrim e).trims = p.trims := rfl
@[simp] theorem Place.restartTrim_cal (p : Place) (e : Env) : (p.restartTrim e).cal = p.cal := rfl
@[simp] theorem Place.restartTrim_emptySince (p : Place) (e : Env) : (p.restartTrim e).emptySince = p.emptySince := rfl
@[simp] theorem Place.restartTrim_stage (p : Place) (e : Env) : (p.restartTrim e).stage = p.stage := rfl
@[simp] theorem Place.restartTrim_timer (p : Place) (e : Env) : (p.restartTrim e).timer = p.timer := rfl
@[simp] theorem Place.restartTrim_fastened (p : Place) (e : Env) : (p.restartTrim e).fastened = p.fastened := rfl
@[simp] theorem Place.restartTrim_policy (p : Place) (e : Env) : (p.restartTrim e).policy = p.policy := rfl
@[simp] theorem Place.restartTrim_live (p : Place) (e : Env) : (p.restartTrim e).live = p.live := rfl
@[simp] theorem Place.restartTrim_sticky (p : Place) (e : Env) : (p.restartTrim e).sticky = p.sticky := rfl
@[simp] theorem Place.restartTrim_marks (p : Place) (e : Env) : (p.restartTrim e).marks = p.marks := rfl

/-! ### takeZeros -/

@[simp] theorem Place.takeZeros_id (p : Place) (z : Vector Word 12) : (p.takeZeros z).id = p.id := rfl
@[simp] theorem Place.takeZeros_total (p : Place) (z : Vector Word 12) : (p.takeZeros z).total = p.total := rfl
@[simp] theorem Place.takeZeros_atLeast (p : Place) (z : Vector Word 12) : (p.takeZeros z).atLeast = p.atLeast := rfl
@[simp] theorem Place.takeZeros_degraded (p : Place) (z : Vector Word 12) : (p.takeZeros z).degraded = p.degraded := rfl
@[simp] theorem Place.takeZeros_conc (p : Place) (z : Vector Word 12) : (p.takeZeros z).conc = p.conc := rfl
@[simp] theorem Place.takeZeros_filter (p : Place) (z : Vector Word 12) : (p.takeZeros z).filter = p.filter := rfl
@[simp] theorem Place.takeZeros_buckle (p : Place) (z : Vector Word 12) : (p.takeZeros z).buckle = p.buckle := rfl
@[simp] theorem Place.takeZeros_leftAnchor (p : Place) (z : Vector Word 12) : (p.takeZeros z).leftAnchor = p.leftAnchor := rfl
@[simp] theorem Place.takeZeros_rightAnchor (p : Place) (z : Vector Word 12) : (p.takeZeros z).rightAnchor = p.rightAnchor := rfl
@[simp] theorem Place.takeZeros_partialCount (p : Place) (z : Vector Word 12) : (p.takeZeros z).partialCount = p.partialCount := rfl
@[simp] theorem Place.takeZeros_age (p : Place) (z : Vector Word 12) : (p.takeZeros z).age = p.age := rfl
@[simp] theorem Place.takeZeros_joinStamp (p : Place) (z : Vector Word 12) : (p.takeZeros z).joinStamp = p.joinStamp := rfl
@[simp] theorem Place.takeZeros_fresh (p : Place) (z : Vector Word 12) : (p.takeZeros z).fresh = p.fresh := rfl
@[simp] theorem Place.takeZeros_reported (p : Place) (z : Vector Word 12) : (p.takeZeros z).reported = p.reported := rfl
@[simp] theorem Place.takeZeros_pendingClass (p : Place) (z : Vector Word 12) : (p.takeZeros z).pendingClass = p.pendingClass := rfl
@[simp] theorem Place.takeZeros_count (p : Place) (z : Vector Word 12) : (p.takeZeros z).count = p.count := rfl
@[simp] theorem Place.takeZeros_verdict (p : Place) (z : Vector Word 12) : (p.takeZeros z).verdict = p.verdict := rfl
@[simp] theorem Place.takeZeros_cal (p : Place) (z : Vector Word 12) : (p.takeZeros z).cal = p.cal := rfl
@[simp] theorem Place.takeZeros_emptySince (p : Place) (z : Vector Word 12) : (p.takeZeros z).emptySince = p.emptySince := rfl
@[simp] theorem Place.takeZeros_nextTrim (p : Place) (z : Vector Word 12) : (p.takeZeros z).nextTrim = p.nextTrim := rfl
@[simp] theorem Place.takeZeros_trimDue (p : Place) (z : Vector Word 12) : (p.takeZeros z).trimDue = p.trimDue := rfl
@[simp] theorem Place.takeZeros_stage (p : Place) (z : Vector Word 12) : (p.takeZeros z).stage = p.stage := rfl
@[simp] theorem Place.takeZeros_timer (p : Place) (z : Vector Word 12) : (p.takeZeros z).timer = p.timer := rfl
@[simp] theorem Place.takeZeros_fastened (p : Place) (z : Vector Word 12) : (p.takeZeros z).fastened = p.fastened := rfl
@[simp] theorem Place.takeZeros_policy (p : Place) (z : Vector Word 12) : (p.takeZeros z).policy = p.policy := rfl
@[simp] theorem Place.takeZeros_live (p : Place) (z : Vector Word 12) : (p.takeZeros z).live = p.live := rfl
@[simp] theorem Place.takeZeros_sticky (p : Place) (z : Vector Word 12) : (p.takeZeros z).sticky = p.sticky := rfl
@[simp] theorem Place.takeZeros_marks (p : Place) (z : Vector Word 12) : (p.takeZeros z).marks = p.marks := rfl

/-! ### loadReload -/

@[simp] theorem Place.loadReload_id (p : Place) : (p.loadReload).id = p.id := rfl
@[simp] theorem Place.loadReload_total (p : Place) : (p.loadReload).total = p.total := rfl
@[simp] theorem Place.loadReload_atLeast (p : Place) : (p.loadReload).atLeast = p.atLeast := rfl
@[simp] theorem Place.loadReload_degraded (p : Place) : (p.loadReload).degraded = p.degraded := rfl
@[simp] theorem Place.loadReload_conc (p : Place) : (p.loadReload).conc = p.conc := rfl
@[simp] theorem Place.loadReload_buckle (p : Place) : (p.loadReload).buckle = p.buckle := rfl
@[simp] theorem Place.loadReload_leftAnchor (p : Place) : (p.loadReload).leftAnchor = p.leftAnchor := rfl
@[simp] theorem Place.loadReload_rightAnchor (p : Place) : (p.loadReload).rightAnchor = p.rightAnchor := rfl
@[simp] theorem Place.loadReload_age (p : Place) : (p.loadReload).age = p.age := rfl
@[simp] theorem Place.loadReload_joinStamp (p : Place) : (p.loadReload).joinStamp = p.joinStamp := rfl
@[simp] theorem Place.loadReload_fresh (p : Place) : (p.loadReload).fresh = p.fresh := rfl
@[simp] theorem Place.loadReload_reported (p : Place) : (p.loadReload).reported = p.reported := rfl
@[simp] theorem Place.loadReload_pendingClass (p : Place) : (p.loadReload).pendingClass = p.pendingClass := rfl
@[simp] theorem Place.loadReload_count (p : Place) : (p.loadReload).count = p.count := rfl
@[simp] theorem Place.loadReload_verdict (p : Place) : (p.loadReload).verdict = p.verdict := rfl
@[simp] theorem Place.loadReload_refZeros (p : Place) : (p.loadReload).refZeros = p.refZeros := rfl
@[simp] theorem Place.loadReload_trims (p : Place) : (p.loadReload).trims = p.trims := rfl
@[simp] theorem Place.loadReload_cal (p : Place) : (p.loadReload).cal = p.cal := rfl
@[simp] theorem Place.loadReload_emptySince (p : Place) : (p.loadReload).emptySince = p.emptySince := rfl
@[simp] theorem Place.loadReload_nextTrim (p : Place) : (p.loadReload).nextTrim = p.nextTrim := rfl
@[simp] theorem Place.loadReload_trimDue (p : Place) : (p.loadReload).trimDue = p.trimDue := rfl
@[simp] theorem Place.loadReload_stage (p : Place) : (p.loadReload).stage = p.stage := rfl
@[simp] theorem Place.loadReload_timer (p : Place) : (p.loadReload).timer = p.timer := rfl
@[simp] theorem Place.loadReload_fastened (p : Place) : (p.loadReload).fastened = p.fastened := rfl
@[simp] theorem Place.loadReload_policy (p : Place) : (p.loadReload).policy = p.policy := rfl
@[simp] theorem Place.loadReload_live (p : Place) : (p.loadReload).live = p.live := rfl
@[simp] theorem Place.loadReload_sticky (p : Place) : (p.loadReload).sticky = p.sticky := rfl
@[simp] theorem Place.loadReload_marks (p : Place) : (p.loadReload).marks = p.marks := rfl

/-! ### endCal -/

@[simp] theorem Place.endCal_id (p : Place) (e : Env) (st : CalEnd) : (p.endCal e st).id = p.id := by rw [Place.endCal_eq]
@[simp] theorem Place.endCal_total (p : Place) (e : Env) (st : CalEnd) : (p.endCal e st).total = p.total := by rw [Place.endCal_eq]
@[simp] theorem Place.endCal_atLeast (p : Place) (e : Env) (st : CalEnd) : (p.endCal e st).atLeast = p.atLeast := by rw [Place.endCal_eq]
@[simp] theorem Place.endCal_degraded (p : Place) (e : Env) (st : CalEnd) : (p.endCal e st).degraded = p.degraded := by rw [Place.endCal_eq]
@[simp] theorem Place.endCal_conc (p : Place) (e : Env) (st : CalEnd) : (p.endCal e st).conc = p.conc := by rw [Place.endCal_eq]
@[simp] theorem Place.endCal_filter (p : Place) (e : Env) (st : CalEnd) : (p.endCal e st).filter = p.filter := by rw [Place.endCal_eq]
@[simp] theorem Place.endCal_buckle (p : Place) (e : Env) (st : CalEnd) : (p.endCal e st).buckle = p.buckle := by rw [Place.endCal_eq]
@[simp] theorem Place.endCal_leftAnchor (p : Place) (e : Env) (st : CalEnd) : (p.endCal e st).leftAnchor = p.leftAnchor := by rw [Place.endCal_eq]
@[simp] theorem Place.endCal_rightAnchor (p : Place) (e : Env) (st : CalEnd) : (p.endCal e st).rightAnchor = p.rightAnchor := by rw [Place.endCal_eq]
@[simp] theorem Place.endCal_partialCount (p : Place) (e : Env) (st : CalEnd) : (p.endCal e st).partialCount = p.partialCount := by rw [Place.endCal_eq]
@[simp] theorem Place.endCal_age (p : Place) (e : Env) (st : CalEnd) : (p.endCal e st).age = p.age := by rw [Place.endCal_eq]
@[simp] theorem Place.endCal_joinStamp (p : Place) (e : Env) (st : CalEnd) : (p.endCal e st).joinStamp = p.joinStamp := by rw [Place.endCal_eq]
@[simp] theorem Place.endCal_fresh (p : Place) (e : Env) (st : CalEnd) : (p.endCal e st).fresh = p.fresh := by rw [Place.endCal_eq]
@[simp] theorem Place.endCal_refZeros (p : Place) (e : Env) (st : CalEnd) : (p.endCal e st).refZeros = p.refZeros := by rw [Place.endCal_eq]
@[simp] theorem Place.endCal_trims (p : Place) (e : Env) (st : CalEnd) : (p.endCal e st).trims = p.trims := by rw [Place.endCal_eq]
@[simp] theorem Place.endCal_fastened (p : Place) (e : Env) (st : CalEnd) : (p.endCal e st).fastened = p.fastened := by rw [Place.endCal_eq]
@[simp] theorem Place.endCal_policy (p : Place) (e : Env) (st : CalEnd) : (p.endCal e st).policy = p.policy := by rw [Place.endCal_eq]
@[simp] theorem Place.endCal_live (p : Place) (e : Env) (st : CalEnd) : (p.endCal e st).live = p.live := by rw [Place.endCal_eq]
@[simp] theorem Place.endCal_sticky (p : Place) (e : Env) (st : CalEnd) : (p.endCal e st).sticky = p.sticky := by rw [Place.endCal_eq]

/-! ### calSample -/

@[simp] theorem Place.calSample_id (p : Place) (e : Env) (v : CalValues) (r : Readings) : (p.calSample e v r).id = p.id := by
  unfold Place.calSample; repeat' split
  all_goals simp
@[simp] theorem Place.calSample_total (p : Place) (e : Env) (v : CalValues) (r : Readings) : (p.calSample e v r).total = p.total := by
  unfold Place.calSample; repeat' split
  all_goals simp
@[simp] theorem Place.calSample_atLeast (p : Place) (e : Env) (v : CalValues) (r : Readings) : (p.calSample e v r).atLeast = p.atLeast := by
  unfold Place.calSample; repeat' split
  all_goals simp
@[simp] theorem Place.calSample_degraded (p : Place) (e : Env) (v : CalValues) (r : Readings) : (p.calSample e v r).degraded = p.degraded := by
  unfold Place.calSample; repeat' split
  all_goals simp
@[simp] theorem Place.calSample_conc (p : Place) (e : Env) (v : CalValues) (r : Readings) : (p.calSample e v r).conc = p.conc := by
  unfold Place.calSample; repeat' split
  all_goals simp
@[simp] theorem Place.calSample_filter (p : Place) (e : Env) (v : CalValues) (r : Readings) : (p.calSample e v r).filter = p.filter := by
  unfold Place.calSample; repeat' split
  all_goals simp
@[simp] theorem Place.calSample_buckle (p : Place) (e : Env) (v : CalValues) (r : Readings) : (p.calSample e v r).buckle = p.buckle := by
  unfold Place.calSample; repeat' split
  all_goals simp
@[simp] theorem Place.calSample_leftAnchor (p : Place) (e : Env) (v : CalValues) (r : Readings) : (p.calSample e v r).leftAnchor = p.leftAnchor := by
  unfold Place.calSample; repeat' split
  all_goals simp
@[simp] theorem Place.calSample_rightAnchor (p : Place) (e : Env) (v : CalValues) (r : Readings) : (p.calSample e v r).rightAnchor = p.rightAnchor := by
  unfold Place.calSample; repeat' split
  all_goals simp
@[simp] theorem Place.calSample_partialCount (p : Place) (e : Env) (v : CalValues) (r : Readings) : (p.calSample e v r).partialCount = p.partialCount := by
  unfold Place.calSample; repeat' split
  all_goals simp
@[simp] theorem Place.calSample_age (p : Place) (e : Env) (v : CalValues) (r : Readings) : (p.calSample e v r).age = p.age := by
  unfold Place.calSample; repeat' split
  all_goals simp
@[simp] theorem Place.calSample_joinStamp (p : Place) (e : Env) (v : CalValues) (r : Readings) : (p.calSample e v r).joinStamp = p.joinStamp := by
  unfold Place.calSample; repeat' split
  all_goals simp
@[simp] theorem Place.calSample_fresh (p : Place) (e : Env) (v : CalValues) (r : Readings) : (p.calSample e v r).fresh = p.fresh := by
  unfold Place.calSample; repeat' split
  all_goals simp
@[simp] theorem Place.calSample_refZeros (p : Place) (e : Env) (v : CalValues) (r : Readings) : (p.calSample e v r).refZeros = p.refZeros := by
  unfold Place.calSample; repeat' split
  all_goals simp
@[simp] theorem Place.calSample_trims (p : Place) (e : Env) (v : CalValues) (r : Readings) : (p.calSample e v r).trims = p.trims := by
  unfold Place.calSample; repeat' split
  all_goals simp
@[simp] theorem Place.calSample_fastened (p : Place) (e : Env) (v : CalValues) (r : Readings) : (p.calSample e v r).fastened = p.fastened := by
  unfold Place.calSample; repeat' split
  all_goals simp
@[simp] theorem Place.calSample_policy (p : Place) (e : Env) (v : CalValues) (r : Readings) : (p.calSample e v r).policy = p.policy := by
  unfold Place.calSample; repeat' split
  all_goals simp
@[simp] theorem Place.calSample_live (p : Place) (e : Env) (v : CalValues) (r : Readings) : (p.calSample e v r).live = p.live := by
  unfold Place.calSample; repeat' split
  all_goals simp
@[simp] theorem Place.calSample_sticky (p : Place) (e : Env) (v : CalValues) (r : Readings) : (p.calSample e v r).sticky = p.sticky := by
  unfold Place.calSample; repeat' split
  all_goals simp

end Sys2Proof.Machine
end

