-- ==== Sys2Proof/Laws/Work.lean ====
section
/-! SUPPORT. What the work of ST, SS, CU and the places at the end of an exchange can do, said once: it leaves everything but station
records, scan records, waiting requests and places (`Device.still`), and it takes each place through the place operations alone
(`PlaceWork`). -/

namespace Sys2Proof.Machine

/-- The device without what stations, scans and places make of it: station records, scan records, waiting requests and places are
blanked. -/
def Device.still (d : Device) : Device :=
  { d with
    st := { Device.reset.st with lastProbe := d.st.lastProbe, nextProbe := d.st.nextProbe }
    ss := { Device.reset.ss with history := d.ss.history, nextOrder := d.ss.nextOrder, period := d.ss.period }
    places := [] }

theorem Device.env_of_still {d d' : Device} (h : d'.still = d.still) : d'.env = d.env := by
  have h1 := congrArg Device.time h
  have h2 := congrArg Device.mode h
  have h3 := congrArg Device.params h
  have h4 := congrArg Device.vehicle h
  have h5 := congrArg Device.accepted h
  simp only [Device.still] at h1 h2 h3 h4 h5
  simp [Device.env, Device.stamp, h1, h2, h3, h4, h5]

theorem Device.history_of_still {d d' : Device} (h : d'.still = d.still) : d'.ss.history = d.ss.history := by
  have h1 := congrArg (fun x : Device => x.ss.history) h
  simpa [Device.still] using h1

/-- A relation between a place before and after that the work on places at an event respects, in surroundings `e`. -/
structure PlaceWork (R : Place → Place → Prop) (e : Env) : Prop where
  refl       : ∀ p, R p p
  trans      : ∀ {p q r}, R p q → R q r → R p r
  pass       : ∀ v r p, R p (p.pass e v r)
  reload     : ∀ v p, R p (p.reload v)
  abortCal   : ∀ st p, R p (p.abortCal e st)
  storeEnded : ∀ acked p, R p (p.storeEnded e acked)
  setFault   : ∀ k on p, R p (p.setFault k on)

/-- From `d` to `d'` only station records, scan records, waiting requests and, place by place through `R`, the places changed. -/
structure Device.Goes (R : Place → Place → Prop) (d d' : Device) : Prop where
  still  : d'.still = d.still
  places : List.Forall₂ R d.places d'.places

variable {R : Place → Place → Prop}

theorem PlaceWork.at_ {d d' : Device} (W : PlaceWork R d.env) (h : d'.still = d.still) : PlaceWork R d'.env := by
  rw [Device.env_of_still h]; exact W

theorem Device.Goes.rest {d d' : Device} (W : PlaceWork R d.env) (h : d'.still = d.still) (hp : d'.places = d.places) :
    d.Goes R d' :=
  ⟨h, by rw [hp]; exact List.forall₂_same.2 (fun p _ => W.refl p)⟩

theorem Device.Goes.refl {d : Device} (W : PlaceWork R d.env) : d.Goes R d := .rest W rfl rfl

theorem forall₂_trans_of {as bs cs : List Place} (ht : ∀ {p q r}, R p q → R q r → R p r) (h1 : List.Forall₂ R as bs)
    (h2 : List.Forall₂ R bs cs) : List.Forall₂ R as cs := by
  induction h1 generalizing cs with
  | nil => cases h2; exact .nil
  | cons h _ ih => cases h2 with
    | cons h' t => exact .cons (ht h h') (ih t)

theorem Device.Goes.trans {d d' d'' : Device} (W : PlaceWork R d.env) (h : d.Goes R d') (h' : d'.Goes R d'') : d.Goes R d'' :=
  ⟨h'.still.trans h.still, forall₂_trans_of W.trans h.places h'.places⟩

/-- Two pieces of work one after the other. -/
theorem Device.Goes.andThen {d d' d'' : Device} (W : PlaceWork R d.env) (h : d.Goes R d')
    (h' : PlaceWork R d'.env → d'.Goes R d'') : d.Goes R d'' :=
  h.trans W (h' (W.at_ h.still))

theorem Device.Goes.map {d : Device} (W : PlaceWork R d.env) (f : Place → Place) (hf : ∀ p, R p (f p)) :
    d.Goes R (d.mapPlaces f) := by
  have _ := W
  refine ⟨rfl, ?_⟩
  simp only [Device.mapPlaces_places]
  exact List.forall₂_map_right_iff.2 (List.forall₂_same.2 (fun p _ => hf p))

theorem Place.ofStation_work {e : Env} (W : PlaceWork R e) (c : Code) (f : Place → Place) (hf : ∀ p, R p (f p)) (p : Place) :
    R p (p.ofStation c f) := by
  unfold Place.ofStation; split
  · exact hf p
  · exact W.refl p

/-! ## The pieces of work -/

variable {d : Device} (W : PlaceWork R d.env)
include W

theorem Device.goes_setStation (c : Code) (s : Station) : d.Goes R (d.setStation c s) := .rest W rfl rfl
theorem Device.goes_setRecord (c : Code) (r : ScanRecord) : d.Goes R (d.setRecord c r) := .rest W rfl rfl
theorem Device.goes_ask (c : Code) (cmd : LinkCommand) (b : Block) : d.Goes R (d.ask c cmd b) := .rest W rfl rfl
theorem Device.goes_withdraw (c : Code) : d.Goes R (d.withdraw c) := .rest W rfl rfl
theorem Device.goes_pruneStores : d.Goes R d.pruneStores := .rest W rfl rfl
theorem Device.goes_setExcitation (c : Code) (e : Excitation) : d.Goes R (d.setExcitation c e) := .rest W rfl rfl
theorem Device.goes_setScanStep (c : Code) (s : ScanStep) : d.Goes R (d.setScanStep c s) := .rest W rfl rfl
theorem Device.goes_stopScanning (c : Code) : d.Goes R (d.stopScanning c) := .rest W rfl rfl
theorem Device.goes_endScan (c : Code) : d.Goes R (d.endScan c) := .rest W rfl rfl
theorem Device.goes_toAbsent (c : Code) : d.Goes R (d.toAbsent c) := .rest W rfl rfl
theorem Device.goes_toFaulted (c : Code) : d.Goes R (d.toFaulted c) := .rest W rfl rfl

theorem Device.goes_toActive (c : Code) : d.Goes R (d.toActive c) :=
  ((Device.goes_setStation W c _).andThen W (fun W => Device.goes_setRecord W c _)).andThen W
    (fun W => .map W _ (fun p => Place.ofStation_work W c _ (fun q => W.setFault _ _ q) p))

theorem Device.goes_loadingComplete (c : Code) : d.Goes R (d.loadingComplete c) :=
  ((Device.goes_setStation W c _).andThen W
    (fun W => .map W _ (fun p => Place.ofStation_work W c _ (fun q => W.reload _ q) p))).andThen W
    (fun W => Device.goes_ask W c _ _)

theorem Device.goes_continueLoading (c : Code) : d.Goes R (d.continueLoading c) := by
  unfold Device.continueLoading; split
  · exact Device.goes_ask W c _ _
  · exact Device.goes_loadingComplete W c

theorem Device.goes_askLoading (c : Code) (pattern : Bool) : d.Goes R (d.askLoading c pattern) := by
  unfold Device.askLoading; split
  · exact Device.goes_ask W c _ _
  · exact Device.goes_continueLoading W c

theorem Device.goes_abortNode (c : Code) : d.Goes R (d.abortNode c) :=
  (Device.Goes.map W (Place.ofStation c (fun p => p.abortCal d.env .abortedNode))
    (fun p => Place.ofStation_work W c _ (fun q => W.abortCal _ q) p)).andThen W (fun W => Device.goes_pruneStores W)

theorem Device.goes_reload (c : Code) (retained : Bool) (n : Nat) : d.Goes R (d.reload c retained n) :=
  ((Device.goes_setStation W c _).andThen W
    (fun W => .map W _ (fun p => Place.ofStation_work W c _ (fun q => W.setFault _ _ q) p))).andThen W
    (fun W => Device.goes_ask W c _ _)

theorem Device.goes_nodeRestart (c : Code) : d.Goes R (d.nodeRestart c) :=
  ((Device.goes_stopScanning W c).andThen W (fun W => Device.goes_abortNode W c)).andThen W
    (fun W => Device.goes_reload W c true 0)

theorem Device.goes_beginTest (c : Code) : d.Goes R (d.beginTest c) :=
  ((Device.goes_setStation W c _).andThen W (fun W => Device.goes_stopScanning W c)).andThen W
    (fun W => Device.goes_ask W c _ _)

theorem Device.goes_takeUpTest (c : Code) : d.Goes R (d.takeUpTest c) := by
  unfold Device.takeUpTest; split
  · exact Device.goes_beginTest W c
  · exact .refl W

theorem Device.goes_toSilent (c : Code) : d.Goes R (d.toSilent c) :=
  ((Device.goes_setStation W c _).andThen W (fun W => Device.goes_stopScanning W c)).andThen W
    (fun W => Device.goes_abortNode W c)

theorem Device.goes_scanFailed (c : Code) : d.Goes R (d.scanFailed c) := by
  unfold Device.scanFailed; simp only; split
  · exact (Device.goes_endScan W c).andThen W (fun W => Device.goes_toSilent W c)
  · exact ((Device.goes_endScan W c).andThen W (fun W => Device.goes_setStation W c _)).andThen W
      (fun W => Device.goes_takeUpTest W c)

theorem Device.goes_askStores (ps qs : List Place) : d.Goes R (d.askStores ps qs) := by
  induction ps generalizing d qs with
  | nil => exact .refl W
  | cons p ps ih =>
    cases qs with
    | nil => exact .refl W
    | cons q qs =>
      unfold Device.askStores
      split
      · split
        · split
          · exact ih W qs
          · exact (Device.goes_ask W _ _ _).andThen W (fun W => ih W qs)
        · exact ih W qs
      · exact ih W qs

theorem Device.goes_scanSucceeded (c : Code) (payload : List Byte) : d.Goes R (d.scanSucceeded c payload) :=
  ((((Device.Goes.map W _ (fun p => Place.ofStation_work W c _ (fun q => W.pass _ _ q) p)).andThen W
    (fun W => Device.goes_endScan W c)).andThen W (fun W => Device.goes_setStation W c _)).andThen W
    (fun W => Device.goes_askStores W _ _)).andThen W (fun W => Device.goes_takeUpTest W c)

theorem Device.goes_scanOutcome (c : Code) (cmd : LinkCommand) (o : LinkOutcome) : d.Goes R (d.scanOutcome c cmd o) := by
  unfold Device.scanOutcome
  repeat' split
  all_goals first
    | with_reducible exact Device.goes_nodeRestart W c
    | with_reducible exact Device.goes_setScanStep W c _
    | with_reducible exact Device.goes_scanFailed W c
    | with_reducible exact Device.goes_scanSucceeded W c _

theorem Device.goes_dropMoved (c : Code) (serial : Serial) : d.Goes R (d.dropMoved c serial) := by
  unfold Device.dropMoved
  generalize List.finRange 12 = l
  induction l generalizing d with
  | nil => exact .refl W
  | cons k l ih =>
    rw [List.foldl_cons]
    split
    · exact (Device.goes_toAbsent W k).andThen W (fun W => ih W)
    · exact ih W

theorem Device.goes_takeSeat (c : Code) (payload : List Byte) (pattern : Bool) : d.Goes R (d.takeSeat c payload pattern) := by
  unfold Device.takeSeat; simp only; split
  · exact (Device.goes_dropMoved W c _).andThen W (fun W => Device.goes_toFaulted W c)
  · exact ((Device.goes_dropMoved W c _).andThen W (fun W => Device.goes_setStation W c _)).andThen W
      (fun W => Device.goes_askLoading W c pattern)

theorem Device.goes_probeOutcome (c : Code) (o : LinkOutcome) : d.Goes R (d.probeOutcome c o) := by
  unfold Device.probeOutcome; split
  · exact Device.goes_toAbsent W c
  · split
    · simp only; split
      · exact (Device.goes_setStation W c _).andThen W (fun W => Device.goes_takeSeat W c _ _)
      · exact (Device.goes_setStation W c _).andThen W (fun W => Device.goes_toFaulted W c)
    · exact (Device.goes_setStation W c _).andThen W (fun W => Device.goes_toFaulted W c)

theorem Device.goes_reprobeOutcome (c : Code) (o : LinkOutcome) : d.Goes R (d.reprobeOutcome c o) := by
  unfold Device.reprobeOutcome; split
  · exact .refl W
  · split
    · simp only; split
      · exact (Device.goes_setStation W c _).andThen W (fun W => Device.goes_toFaulted W c)
      · split
        · split
          · exact ((Device.goes_setStation W c _).andThen W (fun W => .map W _
              (fun p => Place.ofStation_work W c _ (fun q => W.setFault _ _ q) p))).andThen W
              (fun W => Device.goes_askLoading W c _)
          · split
            · exact (Device.goes_setStation W c _).andThen W (fun W => Device.goes_askLoading W c _)
            · exact Device.goes_toActive W c
        · exact (Device.goes_setStation W c _).andThen W (fun W => Device.goes_takeSeat W c _ _)
    · exact .refl W

theorem Device.goes_confirmOutcome (c : Code) (o : LinkOutcome) : d.Goes R (d.confirmOutcome c o) := by
  unfold Device.confirmOutcome; split
  · exact Device.goes_toAbsent W c
  · split
    · simp only; split
      · exact (Device.goes_setStation W c _).andThen W (fun W => Device.goes_toFaulted W c)
      · split
        · exact Device.goes_askLoading W c _
        · exact (Device.goes_setStation W c _).andThen W (fun W => Device.goes_takeSeat W c _ _)
    · exact Device.goes_toAbsent W c

theorem Device.goes_loadingOutcome (c : Code) (cmd : LinkCommand) (o : LinkOutcome) : d.Goes R (d.loadingOutcome c cmd o) := by
  unfold Device.loadingOutcome
  split
  · exact Device.goes_confirmOutcome W c o
  · split
    · exact Device.goes_toAbsent W c
    · split
      · exact Device.goes_reload W c _ _
      · split
        · split
          · exact (Device.goes_setStation W c _).andThen W (fun W => Device.goes_continueLoading W c)
          · exact Device.goes_continueLoading W c
        · exact Device.goes_toAbsent W c

theorem Device.goes_testNext (c : Code) (step : TestStep) (cmd : LinkCommand) : d.Goes R (d.testNext c step cmd) :=
  (Device.goes_setStation W c _).andThen W (fun W => Device.goes_ask W c _ _)

theorem Device.goes_testingOutcome (c : Code) (o : LinkOutcome) : d.Goes R (d.testingOutcome c o) := by
  unfold Device.testingOutcome
  repeat' split
  all_goals first
    | with_reducible exact Device.goes_toFaulted W c
    | with_reducible exact Device.goes_toAbsent W c
    | with_reducible exact Device.goes_reload W c _ _
    | with_reducible exact Device.goes_testNext W c _ _
    | with_reducible exact Device.goes_toActive W c
    | exact .refl W
    | exact (Device.Goes.map W _ (fun p => Place.ofStation_work W c _ (fun q => W.setFault _ _ q) p)).andThen W
        (fun W => Device.goes_testNext W c _ _)

theorem Device.goes_stationOutcome (c : Code) (cmd : LinkCommand) (o : LinkOutcome) : d.Goes R (d.stationOutcome c cmd o) := by
  unfold Device.stationOutcome
  split
  all_goals first
    | with_reducible exact Device.goes_probeOutcome W c o
    | with_reducible exact Device.goes_reprobeOutcome W c o
    | with_reducible exact Device.goes_loadingOutcome W c cmd o
    | with_reducible exact Device.goes_testingOutcome W c o
    | exact .refl W

theorem Device.goes_askProbe (c : Code) : d.Goes R (d.askProbe c) := by
  unfold Device.askProbe; simp only; split
  · exact (Device.goes_setStation W c _).andThen W (fun W => Device.goes_ask W c _ _)
  · exact Device.goes_ask W c _ _

theorem Device.goes_startupNext (c : Code) : d.Goes R (d.startupNext c) := by
  unfold Device.startupNext
  split
  · simp only; split
    · exact (Device.Goes.rest W (d' := { d with st := { d.st with startup := nextCode c } }) rfl rfl).andThen W
        (fun W => Device.goes_askProbe W _)
    · exact .rest W rfl rfl
  · exact .refl W

theorem Device.goes_storeOutcome (c : Code) (seat : Seat) (o : LinkOutcome) : d.Goes R (d.storeOutcome c seat o) := by
  unfold Device.storeOutcome
  split
  · simp only
    have h : ∀ acked : Bool, d.Goes R (d.mapPlaces (Place.ofStation c
        (fun p => if p.id.seat = seat then p.storeEnded d.env acked else p))) := fun acked =>
      .map W _ (fun p => Place.ofStation_work W c _ (fun q => by
        show R q (if q.id.seat = seat then q.storeEnded d.env acked else q)
        split
        · exact W.storeEnded _ q
        · exact W.refl q) p)
    cases o with
    | failed k => exact h false
    | answered a n =>
      show d.Goes R (if a.boot then _ else _)
      split
      · exact (h _).andThen W (fun W => Device.goes_nodeRestart W c)
      · exact h _
  · exact .refl W

/-- What the requesting block makes of an exchange's outcome. -/
theorem Device.goes_deliver (x : Exchange) (o : LinkOutcome) : d.Goes R (d.deliver x o) := by
  unfold Device.deliver
  split
  · split
    · exact Device.goes_scanOutcome W _ _ _
    · exact .refl W
  · exact (Device.goes_startupNext W _).andThen W (fun W => Device.goes_stationOutcome W _ _ _)
  · split
    · exact Device.goes_storeOutcome W _ _ _
    · exact .refl W

theorem Device.goes_lateExpiry (c : Code) : d.Goes R (d.lateExpiry c) := by
  unfold Device.lateExpiry; split
  · exact Device.goes_toAbsent W c
  · exact .refl W

end Sys2Proof.Machine
end

