-- ==== Sys2Proof/Laws/PlaceLaws.lean ====
section
/-! SUPPORT. The place laws through the work of an exchange: for each law the relation that every place operation respects
(`PlaceWork`), so that a proof about a whole exchange needs only the law of one place. -/

namespace Sys2Proof.Machine

/-! ## The verdict (R108) -/

/-- Outside FROZEN the place's verdict is that of R108. -/
abbrev Place.judgedBy (p : Place) (e : Env) : Prop := e.mode ≠ .frozen → p.verdict = e.verdictOf p

theorem Env.verdictOf_congr (e : Env) {p q : Place} (h1 : q.policy = p.policy) (h2 : q.reported = p.reported) (h3 : q.id = p.id)
    (h4 : q.fresh = p.fresh) (h5 : q.cal = p.cal) : e.verdictOf q = e.verdictOf p := by
  simp [Env.verdictOf, Env.accepts, Place.calRunning, h1, h2, h3, h4, h5]

theorem Place.judged_evalVerdict (e : Env) (p : Place) : (p.evalVerdict e).judgedBy e := fun h => by
  rw [Place.evalVerdict_verdict, if_neg h]
  exact (e.verdictOf_congr (by simp) (by simp) (by simp) (by simp) (by simp)).symm

theorem Place.judgedBy_of_eq {e : Env} {p q : Place} (hp : p.judgedBy e) (h0 : q.verdict = p.verdict) (h1 : q.policy = p.policy)
    (h2 : q.reported = p.reported) (h3 : q.id = p.id) (h4 : q.fresh = p.fresh) (h5 : q.cal = p.cal) : q.judgedBy e := fun h => by
  rw [h0, hp h, e.verdictOf_congr h1 h2 h3 h4 h5]

theorem Place.judged_endCal (e : Env) (st : CalEnd) (p : Place) : (p.endCal e st).judgedBy e :=
  Place.judgedBy_of_eq (Place.judged_evalVerdict e _) rfl rfl rfl rfl rfl rfl

theorem Place.judged_setFault {e : Env} (p : Place) (k : FaultKind) (on : Bool) (h : p.judgedBy e) : (p.setFault k on).judgedBy e :=
  Place.judgedBy_of_eq h (by simp) (by simp) (by simp) (by simp) (by simp) (by simp)

theorem Place.judged_markReminder {e : Env} (p : Place) (e0 : Env) (p0 : Place) (h : p.judgedBy e) : (p.markReminder e0 p0 e).judgedBy e :=
  Place.judgedBy_of_eq h (by simp) (by simp) (by simp) (by simp) (by simp) (by simp)

theorem Place.judged_calSample (e : Env) (v : CalValues) (r : Readings) (p : Place) (h : p.judgedBy e) : (p.calSample e v r).judgedBy e := by
  unfold Place.calSample
  split
  · exact h
  · rename_i run hc
    split
    · exact h
    · split
      · exact Place.judged_endCal e _ p
      · split
        · exact Place.judged_endCal e _ p
        · intro hf
          have h1 := h hf
          simp only [Env.verdictOf, Place.calRunning, hc, Env.accepts] at h1 ⊢
          exact h1

theorem Place.judged_driftTrim {e : Env} (v : CalValues) (r : Readings) (p : Place) (h : p.judgedBy e) : (p.driftTrim e v r).judgedBy e :=
  Place.judgedBy_of_eq h (by simp) (by simp) (by simp) (by simp) (by simp) (by simp)

theorem Place.judged_staged {e : Env} (p : Place) (h : p.judgedBy e) : ((p.noteFastened e).toStage e).judgedBy e :=
  Place.judgedBy_of_eq h (by simp) (by simp) (by simp) (by simp) (by simp) (by simp)

/-- After a pass the verdict is that of R108. -/
theorem Place.judged_pass (e : Env) (v : CalValues) (r : Readings) (p : Place) : (p.pass e v r).judgedBy e := by
  unfold Place.pass
  simp only
  exact Place.judged_markReminder _ _ _ (Place.judged_driftTrim v r _ (Place.judged_calSample e v r _
    (Place.judged_staged _ (Place.judged_evalVerdict e _))))

/-- The relation of the verdict law through the work of an exchange. -/
theorem verdict_work (e : Env) : PlaceWork (fun p q => p.judgedBy e → q.judgedBy e) e where
  refl _ h := h
  trans h1 h2 h := h2 (h1 h)
  pass v r p _ := Place.judged_pass e v r p
  reload v p h := Place.judged_setFault _ _ _ (Place.judgedBy_of_eq h rfl rfl rfl rfl rfl rfl)
  abortCal st p h := by
    unfold Place.abortCal; split
    · exact Place.judged_markReminder _ _ _ (Place.judged_endCal e st p)
    · exact h
  storeEnded acked p h := by
    unfold Place.storeEnded; split
    · split
      · exact Place.judged_markReminder _ _ _ (Place.judged_endCal e _ _)
      · exact h
    · exact h
  setFault k on p h := Place.judged_setFault p k on h

/-! ## The reminder stage (R143, R147) -/

/-- The law of the reminder stage for one place. -/
abbrev Place.remindedBy (p : Place) (e : Env) : Prop :=
  (p.stage ≠ .off → e.eligible p = true ∧ p.beltFastened = false) ∧ ((p.stage = .off ∨ p.stage = .watch ∨ p.stage = .lapsed) → p.timer = 0)

/-- The timer is 0 in the stages that have none. -/
abbrev Place.timed (p : Place) : Prop := (p.stage = .off ∨ p.stage = .watch ∨ p.stage = .lapsed) → p.timer = 0

/-- What a stage evaluation can answer. -/
theorem Env.nextStage_law (e : Env) (p : Place) (h : p.timed) (st : Stage) (n : Nat) (hn : e.nextStage p = (st, n)) :
    (st ≠ .off → p.beltFastened = false ∧ e.eligible p = true ∧ (p.reported = .unknown → st = p.stage)) ∧
    ((st = .off ∨ st = .watch ∨ st = .lapsed) → n = 0) := by
  unfold Env.nextStage at hn
  split at hn
  · cases hn; exact ⟨fun c => absurd rfl c, fun _ => rfl⟩
  · rename_i hc
    have hb : p.beltFastened = false := by
      cases hx : p.beltFastened <;> simp_all
    have he : e.eligible p = true := by
      cases hx : e.eligible p <;> simp_all
    split at hn
    · cases hn; exact ⟨fun _ => ⟨hb, he, fun _ => rfl⟩, h⟩
    · rename_i hh
      have hu : p.reported ≠ .unknown := by
        intro hr; apply hh; simp [Env.held, hr]
      repeat' split at hn
      all_goals (cases hn; refine ⟨fun _ => ⟨hb, he, fun hr => absurd hr hu⟩, ?_⟩)
      all_goals (intro hs; first | rfl | exact h (by simp_all))

theorem Place.reminded_toStage (e : Env) (p : Place) (h : p.timed) : (p.toStage e).remindedBy e := by
  obtain ⟨k1, k2⟩ := e.nextStage_law p h (e.nextStage p).1 (e.nextStage p).2 rfl
  refine ⟨fun hs => ?_, k2⟩
  obtain ⟨hb, he, hr⟩ := k1 hs
  refine ⟨?_, hb⟩
  unfold Env.eligible at he ⊢
  have : (p.toStage e).remindedClass = p.remindedClass := by
    unfold Place.remindedClass Place.toStage
    cases hrep : p.reported <;> simp only
    rw [hr hrep]
  rw [this]; exact he

theorem Place.remindedBy_of_eq {e : Env} {p q : Place} (h : p.remindedBy e) (h0 : q.stage = p.stage) (h1 : q.timer = p.timer)
    (h2 : q.reported = p.reported) (h3 : q.policy = p.policy) (h4 : q.buckle = p.buckle) : q.remindedBy e := by
  simp only [Place.remindedBy, Env.eligible, Place.remindedClass, Place.beltFastened, h0, h1, h2, h3, h4]
  exact h

theorem Place.timed_of_eq {p q : Place} (h : p.timed) (h0 : q.stage = p.stage) (h1 : q.timer = p.timer) : q.timed := by
  simp only [Place.timed, h0, h1]; exact h

theorem Place.reminded_setFault {e : Env} (p : Place) (k : FaultKind) (on : Bool) (h : p.remindedBy e) : (p.setFault k on).remindedBy e :=
  Place.remindedBy_of_eq h (by simp) (by simp) (by simp) (by simp) (by simp)

theorem Place.reminded_markReminder {e : Env} (p : Place) (e0 : Env) (p0 : Place) (h : p.remindedBy e) :
    (p.markReminder e0 p0 e).remindedBy e :=
  Place.remindedBy_of_eq h (by simp) (by simp) (by simp) (by simp) (by simp)

theorem Place.reminded_endCal (e : Env) (st : CalEnd) (p : Place) (h : p.timed) : (p.endCal e st).remindedBy e :=
  Place.reminded_toStage e _ (Place.timed_of_eq h (by simp) (by simp))

theorem Place.reminded_calSample (e : Env) (v : CalValues) (r : Readings) (p : Place) (h : p.remindedBy e) :
    (p.calSample e v r).remindedBy e := by
  unfold Place.calSample
  split
  · exact h
  · split
    · exact h
    · split
      · exact Place.reminded_endCal e _ p h.2
      · split
        · exact Place.reminded_endCal e _ p h.2
        · exact Place.remindedBy_of_eq h rfl rfl rfl rfl rfl

theorem Place.reminded_driftTrim {e : Env} (v : CalValues) (r : Readings) (p : Place) (h : p.remindedBy e) :
    (p.driftTrim e v r).remindedBy e :=
  Place.remindedBy_of_eq h (by simp) (by simp) (by simp) (by simp) (by simp)

theorem Place.reminded_pass (e : Env) (v : CalValues) (r : Readings) (p : Place) (h : p.timed) : (p.pass e v r).remindedBy e := by
  unfold Place.pass
  simp only
  refine Place.reminded_markReminder _ _ _ (Place.reminded_driftTrim v r _ (Place.reminded_calSample e v r _ (Place.reminded_toStage e _ ?_)))
  exact Place.timed_of_eq h (by simp [Place.loadPass, Place.loadFields]) (by simp [Place.loadPass, Place.loadFields])

/-- The relation of the reminder law through the work of an exchange. -/
theorem reminder_work (e : Env) : PlaceWork (fun p q => p.remindedBy e → q.remindedBy e) e where
  refl _ h := h
  trans h1 h2 h := h2 (h1 h)
  pass v r p h := Place.reminded_pass e v r p h.2
  reload v p h := Place.reminded_setFault _ _ _ (Place.remindedBy_of_eq h rfl rfl rfl rfl rfl)
  abortCal st p h := by
    unfold Place.abortCal; split
    · exact Place.reminded_markReminder _ _ _ (Place.reminded_endCal e st p h.2)
    · exact h
  storeEnded acked p h := by
    unfold Place.storeEnded; split
    · split
      · exact Place.reminded_markReminder _ _ _ (Place.reminded_endCal e _ _ (Place.timed_of_eq h.2 (by simp) (by simp)))
      · exact h
    · exact h
  setFault k on p h := Place.reminded_setFault p k on h

/-! ## Loads and trims (R83, R84, R87, R93, R121) -/

theorem filterAfter_bound (shift : Nat) (f t : Option Nat) (hf : f.all (fun x => decide (x ≤ 65534)) = true)
    (ht : t.all (fun x => decide (x ≤ 65534)) = true) : (filterAfter shift f t).all (fun x => decide (x ≤ 65534)) = true := by
  cases t with
  | none => exact hf
  | some t =>
    cases f with
    | none => exact ht
    | some f =>
      simp only [Option.all_some, decide_eq_true_eq] at hf ht
      simp only [filterAfter, Option.all_some, decide_eq_true_eq]
      have key : filterStep shift f t ≤ max 0 ((t : Int) - f) := by
        unfold filterStep
        simp only
        rcases lt_trichotomy ((t : Int) - f) 0 with h | h | h
        · have h1 : ((t : Int) - f).tdiv ((2 ^ shift : Nat) : Int) ≤ 0 := by
            have : (-((t : Int) - f)).tdiv ((2 ^ shift : Nat) : Int) = -(((t : Int) - f).tdiv ((2 ^ shift : Nat) : Int)) := Int.neg_tdiv _ _
            have h2 : 0 ≤ (-((t : Int) - f)).tdiv ((2 ^ shift : Nat) : Int) := Int.tdiv_nonneg (by omega) (by positivity)
            omega
          split
          · rw [Int.sign_eq_neg_one_of_neg h]; omega
          · omega
        · rw [h]; simp
        · have h1 : ((t : Int) - f).tdiv ((2 ^ shift : Nat) : Int) ≤ (t : Int) - f := Int.tdiv_le_self _ (le_of_lt h)
          split
          · rw [Int.sign_eq_one_of_pos h]; omega
          · omega
      omega

theorem trimToward_bound (x g : Int) (h : -64 ≤ x ∧ x ≤ 64) : -64 ≤ trimToward x g ∧ trimToward x g ≤ 64 := by
  unfold trimToward; split
  · omega
  · split <;> omega

/-- Both laws of a place's load fields and trims. -/
abbrev Place.inRange (p : Place) : Prop := p.loadLaw ∧ p.trimLaw

theorem Place.inRange_of_eq {p q : Place} (h : p.inRange) (h0 : q.total = p.total) (h1 : q.filter = p.filter) (h2 : q.conc = p.conc)
    (h3 : q.partialCount = p.partialCount) (h4 : q.age = p.age) (h5 : q.trims = p.trims) : q.inRange := by
  simp only [Place.inRange, Place.loadLaw, Place.trimLaw, h0, h1, h2, h3, h4, h5]; exact h

theorem Place.inRange_setFault (p : Place) (k : FaultKind) (on : Bool) (h : p.inRange) : (p.setFault k on).inRange :=
  Place.inRange_of_eq h (by simp) (by simp) (by simp) (by simp) (by simp) (by simp)

theorem Place.inRange_loadPass (p : Place) (shift : Nat) (v : CalValues) (r : Readings) (h : p.inRange) : (p.loadPass shift v r).inRange := by
  have hl : (p.loadFields shift v r).inRange := by
    have ht : (clampTotal (rawTotal (contributions p v r) (12 - (contributions p v r).length))).all (fun x => decide (x ≤ 65534)) = true := by
      unfold clampTotal
      cases rawTotal (contributions p v r) (12 - (contributions p v r).length) <;> simp
    refine ⟨⟨ht, filterAfter_bound _ _ _ h.1.2.1 ht, ?_, ?_, h.1.2.2.2.2⟩, h.2⟩
    · show concentration _ _ ≤ 256
      unfold concentration; split
      · omega
      · omega
      · exact min_le_left _ _
    · show partialAfter _ _ _ ≤ 3
      unfold partialAfter; split
      · exact min_le_left _ _
      · omega
  exact Place.inRange_of_eq hl (by simp [Place.loadPass]) (by simp [Place.loadPass]) (by simp [Place.loadPass]) (by simp [Place.loadPass])
    (by simp [Place.loadPass]) (by simp [Place.loadPass])

theorem Place.inRange_endCal (e : Env) (st : CalEnd) (p : Place) (h : p.inRange) : (p.endCal e st).inRange :=
  Place.inRange_of_eq h (by simp) (by simp) (by simp) (by simp) (by simp) (by simp)

theorem Place.inRange_driftTrim (e : Env) (v : CalValues) (r : Readings) (p : Place) (h : p.inRange) : (p.driftTrim e v r).inRange := by
  unfold Place.driftTrim; split
  · have hs : ∀ q : Place, q.inRange → ({ q with
        trims := Vector.ofFn (fun i : Cell => if cellTrims v r i then trimToward q.trims[i] (q.trimTarget r i) else q.trims[i])
        trimDue := false } : Place).inRange := fun q hq => ⟨hq.1, fun i => by
      simp only [Fin.getElem_fin, Vector.getElem_ofFn]
      split
      · exact trimToward_bound _ _ (hq.2 i)
      · exact hq.2 i⟩
    unfold Place.trimStep; simp only; split
    · exact Place.inRange_setFault _ _ _ (hs p h)
    · exact hs p h
  · exact h

theorem Place.inRange_calSample (e : Env) (v : CalValues) (r : Readings) (p : Place) (h : p.inRange) : (p.calSample e v r).inRange :=
  Place.inRange_of_eq h (by simp) (by simp) (by simp) (by simp) (by simp) (by simp)

theorem Place.inRange_markReminder (p : Place) (e0 : Env) (p0 : Place) (e : Env) (h : p.inRange) : (p.markReminder e0 p0 e).inRange :=
  Place.inRange_of_eq h (by simp) (by simp) (by simp) (by simp) (by simp) (by simp)

theorem Place.inRange_judgedStaged (e : Env) (b : Reading) (p : Place) (h : p.inRange) :
    (((((p.noteBelt b).passEvaluation e).evalVerdict e).noteFastened e).toStage e).inRange :=
  Place.inRange_of_eq h (by simp) (by simp) (by simp) (by simp) (by simp) (by simp)

/-- The relation of the laws of loads and trims through the work of an exchange. -/
theorem range_work (e : Env) : PlaceWork (fun p q => p.inRange → q.inRange) e where
  refl _ h := h
  trans h1 h2 h := h2 (h1 h)
  pass v r p h := by
    unfold Place.pass
    simp only
    refine Place.inRange_markReminder _ _ _ _ (Place.inRange_driftTrim e v r _ (Place.inRange_calSample e v r _
      (Place.inRange_judgedStaged e _ _ (Place.inRange_loadPass _ e.params.filterShift v r (Place.inRange_setFault _ .nodeSilent false ?_)))))
    exact ⟨⟨h.1.1, h.1.2.1, h.1.2.2.1, h.1.2.2.2.1, by show 0 ≤ 65535; omega⟩, h.2⟩
  reload v p h := by
    refine Place.inRange_setFault _ _ _ ⟨⟨h.1.1, rfl, h.1.2.2.1, by show 0 ≤ 3; omega, h.1.2.2.2.2⟩, fun i => ?_⟩
    simp [Place.loadReload, Place.takeZeros]
  abortCal st p h := by
    unfold Place.abortCal; split
    · exact Place.inRange_markReminder _ _ _ _ (Place.inRange_endCal e st p h)
    · exact h
  storeEnded acked p h := by
    unfold Place.storeEnded; split
    · split
      · rename_i zeros _
        have hz : (p.takeZeros zeros).inRange := ⟨h.1, fun i => by simp [Place.takeZeros]⟩
        exact Place.inRange_markReminder _ _ _ _ (Place.inRange_endCal e _ _ (Place.inRange_setFault _ _ _ (Place.inRange_setFault _ _ _ hz)))
      · exact h
    · exact h
  setFault k on p h := Place.inRange_setFault p k on h

/-! ## Held places (R113) -/

/-- The identity stays, and in FROZEN the reported class and the verdict stay. -/
abbrev Place.heldBy (e : Env) (p q : Place) : Prop :=
  q.id = p.id ∧ (e.mode = .frozen → q.reported = p.reported ∧ q.verdict = p.verdict)

theorem Place.held_refl (e : Env) (p : Place) : Place.heldBy e p p := ⟨rfl, fun _ => ⟨rfl, rfl⟩⟩

theorem Place.held_trans {e : Env} {p q r : Place} (h1 : Place.heldBy e p q) (h2 : Place.heldBy e q r) : Place.heldBy e p r :=
  ⟨h2.1.trans h1.1, fun h => ⟨(h2.2 h).1.trans (h1.2 h).1, (h2.2 h).2.trans (h1.2 h).2⟩⟩

theorem Place.held_of_eq {e : Env} {p q : Place} (h0 : q.id = p.id) (h1 : q.reported = p.reported) (h2 : q.verdict = p.verdict) :
    Place.heldBy e p q := ⟨h0, fun _ => ⟨h1, h2⟩⟩

theorem Place.held_rowOne (e : Env) (p : Place) : Place.heldBy e p (p.rowOneEvaluation e) :=
  ⟨by simp, fun h => by rw [(Place.frozen_evaluations e p h).2.1]; exact ⟨rfl, rfl⟩⟩

theorem Place.held_passEvaluation (e : Env) (p : Place) : Place.heldBy e p (p.passEvaluation e) :=
  ⟨by simp, fun h => by rw [(Place.frozen_evaluations e p h).2.2]; exact ⟨rfl, rfl⟩⟩

theorem Place.held_evalVerdict (e : Env) (p : Place) : Place.heldBy e p (p.evalVerdict e) :=
  ⟨by simp, fun h => by rw [(Place.frozen_evaluations e p h).1]; exact ⟨rfl, rfl⟩⟩

theorem Place.held_endCal (e : Env) (st : CalEnd) (p : Place) : Place.heldBy e p (p.endCal e st) :=
  Place.held_trans (Place.held_trans (Place.held_trans (Place.held_of_eq (p := p) (q := (({ p with cal := .ended st }).mark .cal).restartTrim e)
    rfl rfl rfl) (Place.held_rowOne e _)) (Place.held_evalVerdict e _)) (Place.held_of_eq rfl rfl rfl)

theorem Place.held_calSample (e : Env) (v : CalValues) (r : Readings) (p : Place) : Place.heldBy e p (p.calSample e v r) := by
  unfold Place.calSample
  split
  · exact Place.held_refl e p
  · split
    · exact Place.held_refl e p
    · split
      · exact Place.held_endCal e _ p
      · split
        · exact Place.held_endCal e _ p
        · exact Place.held_of_eq rfl rfl rfl

theorem Place.held_markReminder (p : Place) (e0 : Env) (p0 : Place) (e : Env) : Place.heldBy e p (p.markReminder e0 p0 e) :=
  Place.held_of_eq (by simp) (by simp) (by simp)

theorem Place.held_driftTrim (e : Env) (v : CalValues) (r : Readings) (p : Place) : Place.heldBy e p (p.driftTrim e v r) :=
  Place.held_of_eq (by simp) (by simp) (by simp)

theorem Place.held_staged (e : Env) (p : Place) : Place.heldBy e p ((p.noteFastened e).toStage e) :=
  Place.held_of_eq (by simp) (by simp) (by simp)

theorem Place.held_loaded (e : Env) (shift : Nat) (v : CalValues) (r : Readings) (b : Reading) (p : Place) :
    Place.heldBy e p (((Place.setFault { p with age := 0, fresh := true } .nodeSilent false).loadPass shift v r).noteBelt b) :=
  Place.held_of_eq (by simp [Place.loadPass, Place.loadFields]) (by simp [Place.loadPass, Place.loadFields])
    (by simp [Place.loadPass, Place.loadFields])

/-- The relation of held places through the work of an exchange. -/
theorem held_work (e : Env) : PlaceWork (Place.heldBy e) e where
  refl p := Place.held_refl e p
  trans h1 h2 := Place.held_trans h1 h2
  pass v r p := by
    unfold Place.pass
    simp only
    exact Place.held_trans (Place.held_trans (Place.held_trans (Place.held_trans (Place.held_trans (Place.held_trans
      (Place.held_loaded e _ v r _ p) (Place.held_passEvaluation e _)) (Place.held_evalVerdict e _)) (Place.held_staged e _))
      (Place.held_calSample e v r _)) (Place.held_driftTrim e v r _)) (Place.held_markReminder _ _ _ _)
  reload v p := Place.held_of_eq (by simp [Place.reload]) (by simp [Place.reload]) (by simp [Place.reload])
  abortCal st p := by
    unfold Place.abortCal; split
    · exact Place.held_trans (Place.held_endCal e st p) (Place.held_markReminder _ _ _ _)
    · exact Place.held_refl e p
  storeEnded acked p := by
    unfold Place.storeEnded; split
    · split
      · rename_i zeros _
        have hz : Place.heldBy e p (((p.takeZeros zeros).setFault .driftLimit false).setFault .calStoreFail (!acked)) :=
          Place.held_of_eq (by simp) (by simp) (by simp)
        exact Place.held_trans (Place.held_trans hz (Place.held_endCal e _ _)) (Place.held_markReminder _ _ _ _)
      · exact Place.held_refl e p
    · exact Place.held_refl e p
  setFault k on p := Place.held_of_eq (by simp) (by simp) (by simp)

/-! ## Sticky sets (R174) -/

/-- Both sticky sets of the place contain its live set. -/
abbrev Place.covered (p : Place) : Prop := covers p.sticky.a p.live ∧ covers p.sticky.b p.live

theorem Place.covered_of_eq {p q : Place} (h : p.covered) (h0 : q.live = p.live) (h1 : q.sticky = p.sticky) : q.covered := by
  simp only [Place.covered, h0, h1]; exact h

theorem Place.covered_loadPass (p : Place) (shift : Nat) (v : CalValues) (r : Readings) (h : p.covered) : (p.loadPass shift v r).covered := by
  have hl : (p.loadFields shift v r).covered := h
  unfold Place.loadPass Place.loadFaults
  exact Place.setFault_covers _ _ _ (Place.setFault_covers _ _ _ (Place.setFault_covers _ _ _ (Place.setFault_covers _ _ _
    (Place.setFault_covers _ _ _ (Place.setFault_covers _ _ _ hl)))))

theorem Place.covered_afterLoad (e : Env) (v : CalValues) (r : Readings) (b : Reading) (p : Place) (h : p.covered) :
    ((((((p.noteBelt b).passEvaluation e).evalVerdict e).noteFastened e).toStage e).calSample e v r).covered :=
  Place.covered_of_eq h (by simp) (by simp)

theorem Place.covered_markReminder (p : Place) (e0 : Env) (p0 : Place) (e : Env) (h : p.covered) : (p.markReminder e0 p0 e).covered :=
  Place.covered_of_eq h (by simp) (by simp)

theorem Place.covered_endCal (e : Env) (st : CalEnd) (p : Place) (h : p.covered) : (p.endCal e st).covered :=
  Place.covered_of_eq h (by simp) (by simp)

/-- The relation of the sticky law through the work of an exchange. -/
theorem sticky_work (e : Env) : PlaceWork (fun p q => p.covered → q.covered) e where
  refl _ h := h
  trans h1 h2 h := h2 (h1 h)
  pass v r p h := by
    unfold Place.pass
    simp only
    have ht : ∀ q : Place, q.covered → (q.driftTrim e v r).covered := by
      intro q hq
      unfold Place.driftTrim; split
      · unfold Place.trimStep; simp only; split
        · exact Place.setFault_covers _ _ _ hq
        · exact hq
      · exact hq
    exact Place.covered_markReminder _ _ _ _ (ht _ (Place.covered_afterLoad e v r _ _ (Place.covered_loadPass _ _ v r
      (Place.setFault_covers _ _ _ h))))
  reload v p h := Place.setFault_covers _ _ _ h
  abortCal st p h := by
    unfold Place.abortCal; split
    · exact Place.covered_markReminder _ _ _ _ (Place.covered_endCal e st p h)
    · exact h
  storeEnded acked p h := by
    unfold Place.storeEnded; split
    · split
      · rename_i zeros _
        have hz : (p.takeZeros zeros).covered := h
        exact Place.covered_markReminder _ _ _ _ (Place.covered_endCal e _ _ (Place.setFault_covers _ _ _ (Place.setFault_covers _ _ _ hz)))
      · exact h
    · exact h
  setFault k on p h := Place.setFault_covers p k on h

/-! ## Calibrations (R123, R130) -/

/-- No calibration starts, and a running one stays within its record's ranges. -/
abbrev Place.calibratesAs (p q : Place) : Prop :=
  (q.calRunning = true → p.calRunning = true) ∧ ((∀ r ∈ p.cal.record, r.law) → ∀ r ∈ q.cal.record, r.law)

theorem Place.calibratesAs_of_eq {p q : Place} (h : q.cal = p.cal) : p.calibratesAs q := by
  simp only [Place.calibratesAs, Place.calRunning, h]
  exact ⟨fun x => x, fun x => x⟩

theorem Place.calibratesAs_ended {p q : Place} (st : CalEnd) (h : q.cal = .ended st) : p.calibratesAs q := by
  simp [Place.calibratesAs, Place.calRunning, h, Calibration.record]

theorem cellCode_le (w : Word) : cellCode w ≤ 4095 := by
  unfold cellCode
  have := (w.extractLsb' 0 12).isLt
  omega

theorem addSample_bound (v : CalValues) (r : Readings) (sums : Vector Nat 12) (n : Nat) (h : ∀ i : Cell, sums[i] ≤ n * 4095) (i : Cell) :
    (addSample v r sums)[i] ≤ (n + 1) * 4095 := by
  have h1 : sums[i] ≤ (n + 1) * 4095 := le_trans (h i) (Nat.mul_le_mul_right _ (Nat.le_succ n))
  have h2 : sums[i] + cellCode r.words[i] ≤ (n + 1) * 4095 := by
    rw [Nat.add_mul, Nat.one_mul]; exact Nat.add_le_add (h i) (cellCode_le _)
  unfold addSample
  rw [Fin.getElem_fin, Vector.getElem_ofFn]
  split
  · exact h1
  · split
    · exact h2
    · exact h2
    · exact h1
    · exact h1

theorem Place.calibratesAs_calSample (e : Env) (v : CalValues) (r : Readings) (p : Place) : p.calibratesAs (p.calSample e v r) := by
  unfold Place.calSample
  split
  · exact Place.calibratesAs_of_eq rfl
  · rename_i run hc
    split
    · exact Place.calibratesAs_of_eq rfl
    · rename_i hn
      split
      · exact Place.calibratesAs_ended .abortedCell (by rw [Place.endCal_eq])
      · split
        · exact Place.calibratesAs_ended .abortedDisturbed (by rw [Place.endCal_eq])
        · refine ⟨fun _ => by simp [Place.calRunning, hc], fun h => ?_⟩
          have hr : run.law := h run (by simp [Calibration.record, hc])
          obtain ⟨h1, h2, h3⟩ := hr
          have h4 : run.samples ≠ 32 := fun c => hn (h3.2 c)
          intro q hq
          simp only [Calibration.record, Option.mem_def, Option.some.injEq] at hq
          subst hq
          refine ⟨by show run.samples + 1 ≤ 32; omega, fun i => addSample_bound v r run.sums run.samples h2 i, ?_⟩
          show (if run.samples + 1 = 32 then _ else none).isSome = true ↔ run.samples + 1 = 32
          split <;> simp_all

theorem Place.calibratesAs.andThen {p q r : Place} (h1 : p.calibratesAs q) (h2 : q.calibratesAs r) : p.calibratesAs r :=
  ⟨fun h => h1.1 (h2.1 h), fun h => h2.2 (h1.2 h)⟩

theorem Place.calibratesAs_loaded (e : Env) (v : CalValues) (r : Readings) (b : Reading) (p : Place) : p.calibratesAs
    ((((((((Place.setFault { p with age := 0, fresh := true } .nodeSilent false).loadPass e.params.filterShift v r).noteBelt b).passEvaluation
      e).evalVerdict e).noteFastened e)).toStage e) :=
  Place.calibratesAs_of_eq (by simp [Place.loadPass, Place.loadFields])

theorem Place.calibratesAs_last (e : Env) (v : CalValues) (r : Readings) (e0 : Env) (p0 p : Place) :
    p.calibratesAs ((p.driftTrim e v r).markReminder e0 p0 e) :=
  Place.calibratesAs_of_eq (by simp)

/-- The relation of the calibration law through the work of an exchange. -/
theorem calibration_work (e : Env) : PlaceWork Place.calibratesAs e where
  refl _ := Place.calibratesAs_of_eq rfl
  trans h1 h2 := h1.andThen h2
  pass v r p := by
    unfold Place.pass
    simp only
    generalize hq : Place.toStage e (Place.noteFastened e _) = q
    have h1 : p.calibratesAs q := by rw [← hq]; exact Place.calibratesAs_loaded e v r _ p
    have h2 : p.calibratesAs (q.calSample e v r) := h1.andThen (Place.calibratesAs_calSample e v r q)
    generalize q.calSample e v r = c at h2 ⊢
    exact h2.andThen (Place.calibratesAs_last e v r e p c)
  reload v p := Place.calibratesAs_of_eq (by simp [Place.reload])
  abortCal st p := by
    unfold Place.abortCal; split
    · exact Place.calibratesAs_ended st (by rw [Place.markReminder_cal, Place.endCal_eq])
    · exact Place.calibratesAs_of_eq rfl
  storeEnded acked p := by
    unfold Place.storeEnded; split
    · split
      · exact Place.calibratesAs_ended _ (by rw [Place.markReminder_cal, Place.endCal_eq])
      · exact Place.calibratesAs_of_eq rfl
    · exact Place.calibratesAs_of_eq rfl
  setFault k on p := Place.calibratesAs_of_eq (by simp)

end Sys2Proof.Machine
end

