-- ==== Sys2Proof/Tests/Slice0.lean ====
section
/-! SUPPORT. The model's own tests: the operands WellFormed refuses, the spec's worked cases, and for every obligation with hypotheses a
state and operands that meet them. -/

set_option Elab.async false

namespace Sys2Proof.Tests

open Sys2Proof.Machine

/-! ## Operands -/

/-- The frame fields used throughout: no flags, selector and value as given. -/
def frame (selector : Byte) (value : Word) : Frame :=
  { moment := .onInstant, forced := false, global := false, selector := selector, value := value }

theorem test_wf_place_15 : Instr.wf (.freshnessLoss 15) = true := by decide
theorem test_illFormed_freshnessLoss : Instr.wf (.freshnessLoss 16) = false := by decide
theorem test_illFormed_nodeSilent : Instr.wf (.nodeSilentAfterJoin 16) = false := by decide
theorem test_illFormed_lampTimer : Instr.wf (.lampTimerReached 16) = false := by decide
theorem test_illFormed_chimeTimer : Instr.wf (.chimeTimerReached 16) = false := by decide
theorem test_illFormed_trimMark : Instr.wf (.trimMark 16) = false := by decide
theorem test_illFormed_badFrame : Instr.wf (.badFrame .a (requestBits 0x02 (frame 1 0))) = false := by decide +kernel
theorem test_wf_badFrame : Instr.wf (.badFrame .a ((requestBits 0x02 (frame 1 0)).drop 1)) = true := by decide +kernel
theorem test_illFormed_illegalRequest : Instr.wf (.illegalRequest .a 0x22 (frame 0 0)) = false := by decide +kernel
theorem test_wf_illegalRequest : Instr.wf (.illegalRequest .a 0x23 (frame 0 0)) = true := by decide +kernel

/-- No word of the table spells a command, so putting one in front changes nothing. -/
theorem test_noTableWord : decodeTableWord 8 0 = none ∧ State.reset.withFetchWord 8 0 = State.reset := by decide +kernel

/-! ## Frames of a port -/

/-- The CRC of R157 over the digits 1 to 9 as ASCII bytes, a known check value of this generator and start value without final XOR. -/
theorem test_crc : crcOfBits (bytesBits [0x31, 0x32, 0x33, 0x34, 0x35, 0x36, 0x37, 0x38, 0x39]) = 0xB4 := by decide +kernel

/-- CAL_ZERO forced, selector 9, value 0x1234: bytes 0x62 0x09 0x12 0x34. -/
theorem test_requestBytes : requestBytes 0x18 { frame 9 0x1234 with forced := true } = [0x62, 0x09, 0x12, 0x34] := by decide +kernel

theorem test_frameCommand : frameCommand .b .later (requestBits 0x18 { frame 9 0x1234 with forced := true }) =
    .calZero .b { moment := .later, forced := true, global := false, selector := 9, value := 0x1234 } := by decide +kernel

theorem test_shortFrame : frameCommand .a .onInstant ((requestBits 0x20 (frame 0 2)).take 32) =
    .badFrame .a ((requestBits 0x20 (frame 0 2)).take 32) := by decide +kernel

/-- Status and priority share byte 0, the echo has six bits, data goes most significant byte first. -/
theorem test_responseBytes : (responseBytes { status := .staleGen, echo := 0x20, data := 0x0102 } 3).take 4 = [0x83, 0x20, 0x01, 0x02] := by
  decide +kernel

/-! ## The load: the spec's worked case -/

def workedValues : CalValues where
  zeros := #v[400, 420, 380, 400, 410, 400, 400, 400, 390, 400, 400, 400]
  gains := #v[256, 256, 320, 256, 280, 256, 256, 240, 256, 256, 256, 256]
  unusable := Vector.replicate 12 false

/-- Cell 6 OPEN, cell 10 FLOOR, the others VALID; buckle and anchors UNLATCHED. -/
def workedReadings : Readings where
  words := #v[1400, 1620, 900, 2100, 2500, 1900, 0xC000, 1300, 700, 380, 0x8000, 1000]
  inputs := 0x15

def workedPlace : Place :=
  { freshPlace { station := 0, seat := 0, serial := 7 } workedValues 0 with
    filter := some 10400, reported := .small, fresh := true, age := 40 }

theorem test_workedCase : (fun p : Place => (p.total, p.atLeast, p.degraded, p.conc, p.filter))
    (workedPlace.loadPass 2 workedValues workedReadings) = (some 11005, false, true, 92, some 10551) := by decide +kernel

theorem test_workedFaults : (workedPlace.loadPass 2 workedValues workedReadings).live = BitVec.twoPow 12 FaultKind.cellOpen.bit := by
  decide +kernel

theorem test_workedClass : (workedPlace.loadPass 2 workedValues workedReadings).candidate Params.reset = .adult := by decide +kernel

theorem test_workedNext : ((workedPlace.loadPass 2 workedValues workedReadings).loadPass 2 workedValues workedReadings).filter =
    some 10664 := by decide +kernel

theorem test_filterTable : [(100, 102), (100, 98), (100, 103), (100, 104), (10551, 9946), (0, 65534), (40, 7000), (4063, 7000)].map
    (fun ft => filterAfter 2 (some ft.1) (some ft.2)) =
    [some 101, some 99, some 101, some 101, some 10400, some 16383, some 1780, some 4797] := by decide +kernel

/-- Full scale: 12 saturated cells, zeros 0, gains 1023. -/
theorem test_fullScale : (fun p : Place => (p.total, p.atLeast, p.conc))
    (({ workedPlace with refZeros := Vector.replicate 12 0 } : Place).loadPass 2
      { zeros := Vector.replicate 12 0, gains := Vector.replicate 12 1023, unusable := Vector.replicate 12 false }
      { words := Vector.replicate 12 0x4FFF, inputs := 0x15 }) = (some 65534, true, 127) := by decide +kernel

/-! ## Classification: the table by example -/

def judged (c : Machine.Class) (f k : Nat) (buckle left right : Reading) (atLeast anchorFault : Bool) : Place :=
  { workedPlace with
    reported := c, filter := some f, total := some f, conc := k, buckle := buckle, leftAnchor := left, rightAnchor := right
    atLeast := atLeast, live := if anchorFault then BitVec.twoPow 12 FaultKind.anchorFault.bit else 0 }

theorem test_decisionTable :
    [judged .empty 1000 80 .unlatched .unlatched .unlatched false false, judged .small 1000 80 .unlatched .unlatched .unlatched false false,
     judged .small 880 80 .unlatched .unlatched .unlatched false false, judged .unknown 1000 80 .unlatched .unlatched .unlatched false false,
     judged .empty 20 256 .unlatched .unlatched .unlatched true false, judged .adult 3200 70 .unlatched .unlatched .unlatched false false,
     judged .small 3200 70 .unlatched .unlatched .unlatched false false, judged .adult 3200 170 .latched .unlatched .unlatched false false,
     judged .empty 900 200 .fault .unlatched .unlatched false false, judged .adult 5000 60 .unlatched .latched .latched false false,
     judged .childAnchored 700 190 .unlatched .latched .fault false true].map (Place.candidate Params.reset) =
    [.empty, .small, .empty, .small, .small, .adult, .small, .childBelted, .empty, .childAnchored, .unknown] := by decide +kernel

/-! ## The failure run, the generation, the trim -/

theorem test_failureRun : [[3], pushFailure [3] 3, pushFailure [3, 3] 8, pushFailure [3, 3, 8] 1, pushFailure [3, 8, 1] 1] =
    [[3], [3, 3], [3, 3, 8], [3, 8, 1], [8, 1, 1]] ∧ threeDifferent [3, 8, 1] = true ∧ threeDifferent [8, 1, 1] = false := by decide +kernel

theorem test_generationWraps : nextGeneration 255 = 1 ∧ nextGeneration 0 = 1 ∧ nextGeneration 7 = 8 := by decide +kernel

theorem test_trim : [trimToward 0 3, trimToward 3 3, trimToward 0 (-3), trimToward 64 72] = [1, 3, -1, 64] ∧
    trimHeld 64 72 = true ∧ trimHeld 3 3 = false := by decide +kernel

/-! ## The node and the answer checks -/

def node : Node where
  condition := .relaxed
  autoRelax := false
  pattern := false
  boot := true
  calibration := [{ zeros := Vector.replicate 12 400, gains := Vector.replicate 12 256 }]
  serial := 0x01020304
  station := 1
  reads := 1

/-- LC accepts the node's IDENTIFY answer, with its boot flag. -/
theorem test_identify : receive .identify none [] (node.take 5 [] .identify).2 =
    some (.accepted { result := .ack, boot := true, excited := false, pattern := false, payload := [1, 2, 3, 4, 1, 1, 0] }) := by
  decide +kernel

theorem test_calRead : (match receive (.calRead 0) (some 1) [] (node.take 5 [] (.calRead 0)).2 with
    | some (.accepted a) => calValuesOf a.payload
    | _ => workedValues) =
    { zeros := Vector.replicate 12 400, gains := Vector.replicate 12 256, unusable := Vector.replicate 12 false } := by decide +kernel

/-- In pattern mode the SAMPLE answer is the fixed content. -/
theorem test_patternSample : (match receive .sample (some 1) [] ((node.take 5 [] .patternOn).1.take 6 [] .sample).2 with
    | some (.accepted a) => patternMatches (some 1) a
    | _ => false) = true := by decide +kernel

theorem test_sampleNotExcited : receive .sample (some 1) [] (node.take 5 [] .sample).2 =
    some (.accepted { result := .notExcited, boot := true, excited := false, pattern := false, payload := [] }) := by decide +kernel

/-- The node answers the part's frames addressed to it and reads each as the command sent; it drops a frame for another station, one
with a wrong check byte, one whose length disagrees, and one whose command byte it does not know. -/
theorem test_nodeHears : (node.hear 5 [] (commandChars 0 .identify)).2 = some (node.take 5 [] .identify).2 ∧
    [LinkCommand.calRead 2, .calStore 1 (Vector.replicate 12 0x0190), .excite, .sample, .relax, .patternOn, .patternOff].map
      (fun cmd => readCommand 1 ((commandFrame 0 cmd).drop 1)) =
    [LinkCommand.calRead 2, .calStore 1 (Vector.replicate 12 0x0190), .excite, .sample, .relax, .patternOn, .patternOff].map
      (fun cmd => some cmd.atNode) ∧
    [commandChars 1 .identify, [(true, 1), (false, 0x31), (false, 0), (false, 0xCF)], [(true, 1), (false, 0x31), (false, 1), (false, 0xCD)],
     [(true, 1), (false, 0x39), (false, 0), (false, 0xC6)]].map (fun chars => node.hear 5 [] chars) =
      List.replicate 4 (node, none) := by decide +kernel

/-- An auto-relax node stays EXCITED while it answers a SAMPLE and recovers from the end of that answer: sampled at 8, its answer sent
at 11, it refuses an EXCITE at 12 and takes one at 13. -/
theorem test_autoRelax :
    let excited := (node.take 5 [] (.excite true)).1
    let sampled := (excited.take 8 [] .sample).1
    sampled.condition = .excited 5 ∧ (sampled.answerSent 11 .sample).condition = .recovering 11 ∧
    [12, 13].map (fun now => (((sampled.answerSent 11 .sample).atInstant now).take now [] (.excite true)).1.condition) =
      [.recovering 11, .excited 13] ∧
    ((excited.take 24 [] .sample).1.answerSent 26 .sample).condition = .recovering 25 := by decide +kernel

theorem test_commandFrame : commandFrame 1 .excite = [0x02, 0x34, 0x01, 0x01, 0xC8] := by decide +kernel

/-! ## Small states -/

/-- Station 1 ACTIVE with one place, in RUN at 1000 ms, the link idle; its calibration values are those of the worked case. -/
def seated : State :=
  { State.reset with
    dev := ({ Device.reset with
      time := { now := 1000, past := false }
      mode := .run
      startupDone := true
      lc := { quietSeen := true, exchange := none, failureRun := [] }
      st := { stations := (Vector.replicate 12 Station.absent).set 0 { Station.absent with
                state := .active, serial := some 7, count := some 1, load := #v[some workedValues, none, none]
                values := #v[some workedValues, none, none] }
              startup := none, lastProbe := none, nextProbe := some 1000 }
      ss := { Device.reset.ss with
        waiting := []
        records := (Vector.replicate 12 ScanRecord.reset).set 0 { ScanRecord.reset with due := some 990 } }
      places := [{ workedPlace with
        verdict := .suppress, policy := { reminderEnable := true, childReminder := true, restraintFitted := true } }]
      generation := 2
      vehicle := { ignition := true, speed := none, lapseStart := some 600, speedZero := none } } : Device).finish }

/-- The state with one change of its blocks. -/
def State.but (s : State) (f : Device → Device) : State := { s with dev := f s.dev }

/-- The state with its first place changed. -/
def State.place (s : State) (f : Place → Place) : State := State.but s (fun d => d.modifyPlace 0 f)

/-- The state with station 1 and its scan record changed. -/
def State.bench (s : State) (f : Station → Station) (g : ScanRecord → ScanRecord) : State :=
  State.but s (fun d => (d.setStation 0 (f (d.station 0))).setRecord 0 (g (d.record 0)))

/-- The state with an exchange of station 1 on the link. -/
def State.onLink (s : State) (x : Exchange) : State := State.but s (fun d => { d with lc := { d.lc with exchange := some x } })

def exchange (cmd : LinkCommand) (b : Block) (first : Option FailKind) (phase : Option Phase) (rx : List Byte) : Exchange :=
  { station := 0, cmd := cmd, block := b, firstFailure := first, phase := phase, frameEnd := 990, rx := rx }

/-- The state with a frame open on a port. -/
def State.opened (s : State) (p : Port) : State :=
  { s with ports := s.ports.set p { s.ports.get p with highSeen := true, loaded := some [0x10, 0, 0, 2, 0] } }

/-- The outcome's state, for a command that answers one. -/
def after (c : Instr) (s : State) : State :=
  match exec c s with
  | .next t => t
  | .fault _ => s
  | .refused _ => s

/-! ## Steps -/

/-- From reset the post-reset quiet passes, the arbiter starts the IDENTIFY of station 1, and its frame is sent. -/
theorem test_firstExchange : (fun s : State => s.dev.lc.exchange)
    (after (.commandFrameSent .later) (after (.arbiterChoice .later) (after .linkQuietPassed State.reset))) =
    some { station := 0, cmd := .identify, block := .st, firstFailure := none, phase := some .awaiting, frameEnd := 1, rx := [] } := by
  decide +kernel

/-- A step takes the front command and leaves the rest. -/
theorem test_step : (match step { seated with pending := [.ageTick, .reset] } with
    | .next t => (t.pending, t.dev.time.now)
    | .fault _ => ([], 0)
    | .refused _ => ([], 0)) = ([.reset], 1001) := by decide +kernel

theorem test_reset : after .reset seated = State.reset := by decide +kernel

/-- The third failed exchange of three different stations raises LINK_FAULT at both ports. -/
theorem test_linkFault : (fun s : State => (s.dev.live, s.dev.report.a.stickyGlobal, s.dev.report.b.globalMark, s.dev.report.a.priority))
    (after (.noAnswerTimeout .onInstant) (State.onLink (State.but seated (fun d => { d with lc := { d.lc with failureRun := [3, 8] } }))
      (exchange .sample .ss (some .noAnswer) (some .awaiting) []))) = (8, 8, true, 1) := by decide +kernel

/-- A stale place: row 1, UNKNOWN, the mark at both ports. -/
theorem test_freshnessLoss : (fun s : State => s.dev.places.map (fun p => (p.fresh, p.reported, p.marked .a .cls, p.marked .b .cls)))
    (after (.freshnessLoss 0) (State.place seated (fun p => { p with age := 401 }))) = [(false, .unknown, true, true)] := by decide +kernel

/-- The first response carries the current generation, and the attention line of the mapless port follows the level (R180). -/
theorem test_firstResponse : ((after (.chipSelectFall .a) (after (.chipSelectHighAfterReset .a) seated)).ports.a.loaded.map
    (List.take 4)) = some [0x13, 0, 0, 2] := by decide +kernel

/-- SET_PARAM: owner, range, consistency, and the value written. -/
theorem test_setParam : [(Port.b, 4, 1000), (.a, 4, 99), (.a, 4, 900), (.a, 4, 2999), (.a, 0, 5), (.b, 14, 9)].map
    (fun r => (after (.setParam r.1 (frame r.2.1 r.2.2)) (State.opened seated r.1)).ports.get r.1 |>.response) =
    [.formed { status := .notPermitted, echo := 0x10, data := 1200 }, .formed { status := .range, echo := 0x10, data := 1200 },
     .formed { status := .conflict, echo := 0x10, data := 1200 }, .formed { status := .ok, echo := 0x10, data := 2999 },
     .formed { status := .range, echo := 0x10, data := 0 }, .formed { status := .conflict, echo := 0x10, data := 20 }] := by decide +kernel

/-- ACCEPT_MAP with the current generation confirms the list; the adult on a fitted seat is enabled at the same event. -/
theorem test_acceptMap : (fun s : State => (s.dev.acceptedGen, s.dev.mapPending, s.dev.places.map (fun p => (p.verdict, p.marked .b .map))))
    (after (.acceptMap .a (frame 0 2)) (State.opened (State.place seated (fun p => { p with reported := .adult })) .a)) =
    (2, false, [(.enable, true)]) := by decide +kernel

/-- FREEZE holds, UNFREEZE is refused while the speed is unknown. -/
theorem test_freeze : (fun s : State => (s.dev.mode, s.ports.a.response))
    (after (.unfreeze .a (frame 0 0)) (State.opened (after (.freeze .a (frame 0 0)) (State.opened seated .a)) .a)) =
    (.frozen, .formed { status := .condition, echo := 0x22, data := 2 }) := by decide +kernel

/-! ## Witnesses: for each obligation with hypotheses, states and operands that meet them -/

theorem witness_TheLinkWaitsForTheQuietAndForTheFrameEnd : State.reset.dev.lc.quietSeen = false := by decide +kernel

/-- A choice of each kind: a step of a scan, a waiting request, a new scan. -/
theorem witness_ArbiterChoiceStartsTheChosenExchange :
    seated.dev.linkFree = true ∧ (seated.dev.atMoment .later).choose = some (.scan 0) ∧
    ((State.but seated (fun d => d.ask 3 .identify .st)).dev.atMoment .later).choose =
      some (.waiting { station := 3, cmd := .identify, block := .st }) ∧
    ((State.bench seated id (fun r => { r with scan := some { start := 900, order := 0, step := .sampling } })).dev.atMoment .onInstant).choose =
      some (.step 0 .sample) := by decide +kernel

theorem witness_TheLinkWaitsForTheQuietAndForTheFrameEnd_frameEnd :
    (exchange .sample .ss none (some .sending) []).phase = some .sending ∧ (exchange .sample .ss none none []).phase ≠ some .sending := by
  decide +kernel

/-- A character taken, one that turns the attempt to DRAINING, and an attempt with no phase for characters. -/
theorem witness_AnswerCharactersAreTakenOrDiscarded :
    seated.dev.lc.exchange = none ∧ (exchange .excite .ss (some .noAnswer) none []).phase = none ∧
    checkAnswer .sample (seated.dev.station 0).count ([] ++ [0x21]) (charWellFormed { data := 0x21, mark := false, stop := true }) = .more ∧
    checkAnswer .sample (seated.dev.station 0).count ([] ++ [0x20]) (charWellFormed { data := 0x20, mark := false, stop := true }) = .drain ∧
    checkAnswer .sample (seated.dev.station 0).count ([] ++ [0x21]) (charWellFormed { data := 0x21, mark := true, stop := true }) = .drain := by
  decide +kernel

/-- The answer ACK without payload to a RELAX, complete with its check byte; and the answer of a SILENT station's own seat to its
re-probe, boot flag clear, at attempt 1 and at attempt 2 after BAD_CHECK. -/
theorem witness_AnAcceptedAnswerEndsTheExchange :
    checkAnswer .relax (seated.dev.station 0).count ([0x01, 0x00] ++ [0xFF]) (charWellFormed { data := 0xFF, mark := false, stop := true }) =
      .accepted { result := .ack, boot := false, excited := false, pattern := false, payload := [] } ∧
    checkAnswer .identify none ([0x01, 7, 0, 0, 0, 7, 1, 1, 0] ++ [0xEF]) (charWellFormed { data := 0xEF, mark := false, stop := true }) =
      .accepted { result := .ack, boot := false, excited := false, pattern := false, payload := [0, 0, 0, 7, 1, 1, 0] } ∧
    identityCode [0, 0, 0, 7, 1, 1, 0] = 0 + 1 ∧ identityCount [0, 0, 0, 7, 1, 1, 0] = 1 ∧
    (seated.dev.station 0).serial = some (identitySerial [0, 0, 0, 7, 1, 1, 0]) ∧ (seated.dev.station 0).count = some 1 := by decide +kernel

/-- The boot flag carry: SILENT, the seat's own answer at attempt 2 after BAD_CHECK loads it again; after NO_ANSWER it is ACTIVE. -/
theorem test_bootFlagCarry : [FailKind.badCheck, .truncated, .noAnswer].map (fun k =>
    ((after (.linkCharacterReceived .onInstant { data := 0xEF, mark := false, stop := true })
      (State.onLink (State.bench seated (fun s => { s with state := .silent, failures := 3, silentSince := some 900, nextReprobe := some 1100 })
        (fun r => { r with due := none }))
        (exchange .identify .st (some k) (some .receiving) [0x01, 7, 0, 0, 0, 7, 1, 1, 0]))).dev.station 0).state) =
    [.loading, .loading, .active] := by decide +kernel

/-- The report of a retried SAMPLE counts two attempts. -/
theorem test_attempts : (exchange .sample .ss (some .badCheck) (some .receiving) []).report
    { result := .notExcited, boot := false, excited := false, pattern := false, payload := [] } =
    .answered { result := .notExcited, boot := false, excited := false, pattern := false, payload := [] } 2 := by decide +kernel

/-- ACK with a payload, REFUSED without one, NOT_EXCITED to a SAMPLE, and the 75 bytes of three places; a result of 0, NOT_EXCITED to
a RELAX, the lengths 81 and one more than fits, a mode byte that disagrees, a framing error. -/
theorem witness_TheAnswerChecksAcceptExactlyFittingFrames :
    (resultOf 0x01 = some .ack ∧ ([1, 2, 3, 4, 1, 1, 0] : List Byte).length = LinkCommand.identify.answerLength none ∧
      (0 : Byte).getLsbD 0 = (0x01 : Byte).getLsbD 5 ∧ (0 : Byte).getLsbD 1 = (0x01 : Byte).getLsbD 6) ∧
    resultOf 0x02 = some .refused ∧ resultOf 0x03 = some .notExcited ∧
    (List.replicate 75 (0 : Byte)).length = LinkCommand.sample.answerLength (some 3) ∧ 75 ≤ 80 ∧
    resultOf 0x20 = none ∧ LinkCommand.relax ≠ .sample ∧ 80 < (81 : Byte).toNat ∧
    (8 : Byte).toNat ≠ LinkCommand.identify.answerLength none ∧ (1 : Byte).getLsbD 0 ≠ (0x01 : Byte).getLsbD 5 ∧
    ({ data := 0, mark := false, stop := false } : RxChar).stop = false := by decide +kernel

/-- The check byte that a RELAX answer should not have. -/
def badByte : Instr := .linkCharacterReceived .later { data := 0xFE, mark := false, stop := true }

/-- The four ways an attempt fails, each in its phase, on a first attempt; the budget allows an EXCITE. -/
theorem witness_AFailedFirstAttemptIsRetriedAtOnce :
    [(Instr.noAnswerTimeout .later, Phase.awaiting, FailKind.noAnswer), (.truncatedTimeout .later, .receiving, .truncated),
     (.drainQuietTimeout .later, .draining, .badCheck), (badByte, .receiving, .badCheck)].all (fun r =>
      [LinkCommand.relax, .excite].all (fun cmd =>
        decide (seated.dev.failureOf (exchange cmd .ss none (some r.2.1) [0x01, 0x00]) r.1 = some (.later, r.2.2) ∧
          (exchange cmd .ss none (some r.2.1) [0x01, 0x00]).firstFailure = none))) = true ∧
    seated.dev.budgetAllows = true := by decide +kernel

theorem witness_AFailedSecondAttemptEntersTheFailureRun :
    [(Instr.noAnswerTimeout .later, Phase.awaiting, FailKind.noAnswer), (badByte, .receiving, .badCheck)].all (fun r =>
      decide (seated.dev.failureOf (exchange .excite .ss (some .noAnswer) (some r.2.1) [0x01, 0x00]) r.1 = some (.later, r.2.2) ∧
        (exchange .excite .ss (some .noAnswer) (some r.2.1) [0x01, 0x00]).firstFailure ≠ none)) = true := by decide +kernel

/-- A bad check byte: attempt 1 of an EXCITE goes out again at once with its stamp entered, attempt 2 of a RELAX fails. -/
theorem test_badByte : (fun s : State => (s.dev.lc.exchange.map (fun x => (x.attempt, x.phase)), s.dev.ss.history))
      (after badByte (State.onLink seated (exchange .excite .ss none (some .receiving) [0x01, 0x00]))) = (some (2, some .sending), [1001]) ∧
    (fun s : State => (s.dev.lc.exchange, s.dev.lc.failureRun))
      (after badByte (State.onLink seated (exchange .relax .ss (some .noAnswer) (some .receiving) [0x01, 0x00]))) = (none, [0]) := by
  decide +kernel

/-- The budget with four entries, the oldest 19 ms and 20 ms old. -/
theorem witness_AnExciteRetryWaitsForTheBudget :
    (State.but seated (fun d => { d with ss := { d.ss with history := [981, 985, 990, 995] } })).dev.budgetAllows = false ∧
    (State.but seated (fun d => { d with ss := { d.ss with history := [980, 985, 990, 995] } })).dev.budgetAllows = true ∧
    seated.dev.failureOf (exchange .excite .ss none (some .awaiting) []) (.noAnswerTimeout .later) = some (.later, .noAnswer) ∧
    (exchange .excite .ss (some .noAnswer) none []).phase = none := by decide +kernel

/-- A scan settling, 3 ms and 2 ms after the EXCITE time. -/
def settling (time : Nat) : State :=
  State.bench seated id (fun r => { r with
    excitation := .excited (.known time), scan := some { start := 990, order := 0, step := .settling } })

theorem witness_ReachedInstants_settlePassed :
    ((settling 997).dev.record 0).scan = some { start := 990, order := 0, step := .settling } ∧
    ((settling 997).dev.record 0).excitation = .excited (.known 997) ∧ 997 + 3 ≤ (settling 997).dev.time.now ∧
    ((settling 998).dev.record 0).excitation = .excited (.known 998) ∧ (settling 998).dev.time.now < 998 + 3 := by decide +kernel

/-- A scan whose SAMPLE has not begun at 20 ms, one without a scan, and a station with two failures behind it. -/
theorem witness_SelfRelaxEndsAnUnsampledScan :
    ((settling 980).dev.record 0).excitation = .excited (.known 980) ∧ 980 + 20 ≤ (settling 980).dev.time.now ∧
    (settling 980).dev.sampleNotBegun 0 = true ∧
    (State.bench (settling 980) id (fun r => { r with scan := none })).dev.sampleNotBegun 0 = false ∧
    2 ≤ ((State.bench (settling 980) (fun s => { s with failures := 2 }) id).dev.station 0).failures := by decide +kernel

theorem witness_ReachedInstantsChangeWhatTheSchedulerMayDo :
    ((State.bench seated id (fun r => { r with excitation := .excited (.unknown 980) })).dev.record 0).excitation = .excited (.unknown 980) ∧
    980 + 20 ≤ seated.dev.time.now ∧
    ((State.bench seated id (fun r => { r with excitation := .recovering 1000 })).dev.record 0).excitation = .recovering 1000 ∧
    1000 ≤ seated.dev.time.now ∧ seated.dev.time.now < 1001 ∧
    (seated.dev.station 0).state = .active ∧ (seated.dev.record 0).due = some 990 ∧ 990 ≤ seated.dev.time.now := by decide +kernel

/-- A scan begun at the boundary of the budget enters its stamp. -/
theorem witness_TheExcitationBudgetIsKept :
    (after (.arbiterChoice .onInstant) (State.but seated (fun d => { d with ss := { d.ss with history := [980, 985, 990, 995] } }))).dev.ss.history =
      [985, 990, 995, 1000] ∧ Instr.arbiterChoice .onInstant ≠ .reset ∧ seated.dev.historyLaw ∧ seated.dev.waitingLaw ∧
    seated.dev.lc.exchange = none ∧
    (fun x : Option Exchange => x.map (fun y => (y.phase, y.cmd))) (after (.arbiterChoice .onInstant) seated).dev.lc.exchange =
      some (some .sending, .excite) := by decide +kernel

/-- A fresh place at age 401, in RUN and in FROZEN. -/
theorem witness_StaleAndUnsampledPlacesRaiseNodeSilent :
    (State.place seated (fun p => { p with age := 401 })).dev.places.map (fun p => (p.fresh, p.age, p.joinStamp, p.calRunning)) =
      [(true, 401, 0, false)] ∧ seated.dev.mode = .run ∧
    (State.but seated (fun d => { d with mode := .frozen })).dev.mode = .frozen := by decide +kernel

/-- A place never sampled 401 ms after it joined, with the fault not yet live and live. -/
theorem witness_StaleAndUnsampledPlacesRaiseNodeSilent_unsampled :
    (State.place seated (fun p => { p with fresh := false, joinStamp := 599 })).dev.places.map
      (fun p => (p.fresh, p.joinStamp, p.hasFault .nodeSilent)) = [(false, 599, false)] ∧ 599 + 401 ≤ seated.dev.time.now ∧
    ((workedPlace.setFault .nodeSilent true).hasFault .nodeSilent) = true := by decide +kernel

/-- A probe mark that picks an ABSENT station, one that picks a FAULTED one, one with the last probe outstanding; a re-probe mark. -/
theorem witness_ProbeMarksAskForAnIdentify :
    seated.dev.st.nextProbe = some 1000 ∧ 1000 ≤ seated.dev.time.now ∧ seated.dev.probeOutstanding = false ∧
    seated.dev.probePick = some 1 ∧ (seated.dev.station 1).state = .absent ∧
    (State.but seated (fun d => d.setStation 1 { Station.absent with state := .faulted })).dev.probePick = some 1 ∧
    (after .probeMark seated).dev.probeOutstanding = true ∧
    ((State.bench seated (fun s => { s with state := .silent, nextReprobe := some 1000 }) id).dev.station 0).nextReprobe = some 1000 ∧
    ((State.bench seated (fun s => { s with state := .silent, nextReprobe := some 1000 }) id).dev.station 0).state = .silent := by
  decide +kernel

/-- Station 1 SILENT for 2 s, with and without its re-probe in flight. -/
def silentFor2s : State :=
  State.but (State.bench seated (fun s => { s with state := .silent, failures := 3, silentSince := some 1000, nextReprobe := some 3050 })
    (fun r => { r with due := none })) (fun d => { d with time := { now := 3000, past := false } })

theorem witness_ASilentStationExpires :
    (silentFor2s.dev.station 0).state = .silent ∧ (silentFor2s.dev.station 0).silentSince = some 1000 ∧
    1000 + 2000 ≤ silentFor2s.dev.time.now ∧ silentFor2s.dev.reProbeInFlight 0 = false ∧
    (State.onLink silentFor2s (exchange .identify .st none (some .awaiting) [])).dev.reProbeInFlight 0 = true := by decide +kernel

theorem witness_StartUpCompletesByItsTimeLimit :
    (State.but State.reset (fun d => { d with time := { now := 400, past := false } })).dev.time.now = 400 ∧
    State.reset.dev.startupDone = false ∧ State.reset.dev.time.now < 400 ∧ seated.dev.startupDone = true := by decide +kernel

theorem witness_TheLapseMakesTheSpeedUnknown :
    seated.dev.vehicle.lapseStart = some 600 ∧ seated.dev.time.now < 600 + 500 ∧
    600 + 500 ≤ (State.but seated (fun d => { d with time := { now := 1100, past := false } })).dev.time.now ∧
    seated.dev.live.getLsbD GlobalFault.vehicleLapsed.bit = false := by decide +kernel

/-- An unbelted place in LAMP or CHIME with its timer at the limit, above and below v_chime; a trim mark reached and not yet. -/
def reminded (stage : Stage) (timer speed : Nat) : State :=
  State.place (State.but seated (fun d => { d with vehicle := { d.vehicle with speed := some speed } }))
    (fun p => { p with stage := stage, timer := timer, buckle := .unlatched, nextTrim := some 1000 })

theorem witness_AgesAndTimersCountAndActWhenReached :
    [(reminded .lamp 20000 20, Stage.lamp, 20000, 20), (reminded .lamp 20000 19, Stage.lamp, 20000, 19),
     (reminded .chime 90000 0, Stage.chime, 90000, 0)].all (fun r => r.1.dev.places.all (fun p =>
      r.1.dev.env.eligible p && !p.beltFastened && decide (p.reported ≠ .unknown) && decide (r.1.dev.vehicle.speed = some r.2.2.2) &&
      decide (p.stage = r.2.1 ∧ p.timer = r.2.2.1 ∧ p.nextTrim = some 1000))) = true ∧
    seated.dev.params.tLamp * 1000 ≤ 20000 ∧ seated.dev.params.tChime * 1000 ≤ 90000 ∧ seated.dev.params.vChime = 20 ∧
    1000 ≤ seated.dev.time.now ∧ seated.dev.time.now < 1001 := by decide +kernel

theorem witness_ChipSelectOpensAFrame :
    (seated.ports.get .a).highSeen = false ∧ ((after (.chipSelectHighAfterReset .a) seated).ports.get .a).highSeen = true ∧
    ((after (.chipSelectHighAfterReset .a) seated).ports.get .a).loaded = none ∧
    (((State.opened seated .a).ports.get .a).loaded.map List.length) = some 5 := by decide +kernel

/-- Data out of an open frame whose byte 0 is 0x10 and byte 3 is 2, and after the 40th edge; with no frame open, none. -/
theorem test_dataOut : [0, 3, 4, 30, 31, 40].map ((State.opened seated .a).ports.get .a).dataOut =
    [some false, some true, some false, some true, some false, some false] ∧ (seated.ports.get .a).dataOut 3 = none := by decide +kernel

/-- A frame open on each port, a bad frame of no bits and one of 41, and a code that names no request. -/
theorem witness_BadFramesAndUnknownRequestsHaveNoEffect :
    ((State.opened seated .a).ports.get .a).loaded = some [0x10, 0, 0, 2, 0] ∧ ((State.opened seated .b).ports.get .b).loaded.isSome = true ∧
    isGoodFrame [] = false ∧ isGoodFrame (requestBits 0x01 (frame 0 0) ++ [true]) = false ∧ requestOfCode 0x00 = none := by decide +kernel

/-- Port A with a snapshot of two words, one read; the request hypotheses of every request are met by an open frame. -/
def reading : State :=
  State.but (State.opened { seated with ports := { seated.ports with a := { seated.ports.a with
    buffer := [5, 6], cursor := 1, remaining := 1 } } } .a) id

theorem witness_ReadNextShiftsTheSnapshotOut :
    (reading.ports.get .a).loaded.isSome = true ∧ (reading.ports.get .a).remaining = 0 + 1 ∧
    (reading.ports.get .a).buffer = [5] ++ 6 :: [] ∧ ([] : List Word).length = 0 ∧ ((State.opened seated .a).ports.get .a).remaining = 0 := by
  decide +kernel

theorem witness_StatusReadsTheGlobalRecordOfTheState :
    ((State.opened seated .b).ports.get .b).loaded.isSome = true ∧ (frame 7 0).selector.toNat < 8 ∧ 8 ≤ (frame 8 0).selector.toNat := by
  decide +kernel

theorem witness_PlaceStatusReadsAndClearsAtOnePort :
    (State.opened seated .a).dev.places.length ≤ (frame 1 0).selector.toNat ∧
    ((State.opened seated .a).dev.places[(frame 0 0).selector.toNat]?).isSome = true := by decide +kernel

/-- The counts 0 and 65 and a run past the end; the counts 1 and 64 and the run that ends with the table. -/
theorem witness_TableReadTakesASnapshot :
    (frame 0 0).value.toNat = 0 ∧ 64 < (frame 0 65).value.toNat ∧ 184 < (frame 121 64).selector.toNat + (frame 121 64).value.toNat ∧
    1 ≤ (frame 183 1).value.toNat ∧ (frame 120 64).value.toNat ≤ 64 ∧
    (frame 120 64).selector.toNat + (frame 120 64).value.toNat ≤ 184 := by decide +kernel

theorem witness_ChangesAndReminderSummaryReadAndClearNothing :
    ((State.opened seated .a).ports.get .a).loaded.isSome = true ∧ (State.opened seated .a).dev.publishedLaw ∧
    (frame 0 0).selector.toNat = 0 ∧ (frame 1 0).selector.toNat = 1 ∧ 1 < (frame 2 0).selector.toNat := by decide +kernel

/-- The global flag set and clear, a number past the list and one on it: FAULTS_READ and FAULTS_CLEAR. -/
theorem witness_FaultsReadAndFaultsClearActAtOnePort :
    ({ frame 0 0 with global := true } : Frame).global = true ∧ (frame 1 0).global = false ∧
    (State.opened seated .b).dev.places.length ≤ (frame 1 0).selector.toNat ∧
    ((State.opened seated .b).dev.places[(frame 0 0).selector.toNat]?).isSome = true := by decide +kernel

theorem witness_FaultsReadAndFaultsClearActAtOnePort_clear :
    ((State.opened seated .b).ports.get .b).loaded.isSome = true ∧
    ((State.opened seated .b).dev.places[(frame 0 0).selector.toNat]?).isSome = true := by decide +kernel

/-- Every answer of the table, at the edges of a range and of a consistency condition. -/
theorem witness_SetParamWritesOneParameter :
    [setParamAnswer seated.dev .a 4 901, setParamAnswer seated.dev .a 4 900, setParamAnswer seated.dev .a 3 4,
     setParamAnswer seated.dev .a 3 5, setParamAnswer seated.dev .b 3 1, setParamAnswer seated.dev .b 13 20,
     setParamAnswer seated.dev .b 13 21, setParamAnswer seated.dev .a 17 0,
     setParamAnswer { seated.dev with mode := .frozen } .a 3 1] =
    [.ok, .conflict, .ok, .range, .notPermitted, .ok, .conflict, .range, .wrongState] := by decide +kernel

theorem witness_SetPolicyWritesTheFieldsNamed :
    [setPolicyAnswer seated.dev .a (frame 0 0x04), setPolicyAnswer seated.dev .a (frame 0 0x01), setPolicyAnswer seated.dev .b (frame 0 0x33),
     setPolicyAnswer seated.dev .b (frame 0 0x08), setPolicyAnswer seated.dev .b (frame 0 0x80), setPolicyAnswer seated.dev .b (frame 1 0x01)] =
    [.ok, .notPermitted, .ok, .range, .range, .range] ∧
    seated.dev.places.map (fun p => p.policy.restraintFitted) = [true] ∧ seated.dev.mode ≠ .frozen := by decide +kernel

theorem witness_SetAttnReplacesThePortsEnableSet :
    (frame 0 0x80).value.extractLsb' 7 9 ≠ 0 ∧ (frame 0 0x7F).value.extractLsb' 7 9 = 0 := by decide +kernel

/-- A reserved bit, none, and a trip end. -/
theorem witness_VehicleStateSuppliesIgnitionAndSpeed :
    (frame 0 0x0100).value.extractLsb' 8 7 ≠ 0 ∧ (frame 0 0x00FF).value.extractLsb' 8 7 = 0 ∧ seated.dev.vehicle.ignition = true ∧
    (frame 0 0x00FF).value.getLsbD 15 = false ∧ ((State.opened seated .a).ports.get .a).loaded.isSome = true ∧
    ((State.opened seated .b).ports.get .b).loaded.isSome = true := by decide +kernel

/-- Every answer of the table; a place with a calibration running takes the merge. -/
theorem witness_CalZeroStartsMergesOrRefuses :
    [calZeroAnswer seated.dev .a { frame 0 0 with forced := true }, calZeroAnswer seated.dev .b { frame 0 0 with forced := true },
     calZeroAnswer seated.dev .b (frame 0 0), calZeroAnswer seated.dev .a (frame 1 0),
     calZeroAnswer { seated.dev with mode := .frozen } .a (frame 0 0),
     calZeroAnswer (State.place seated (fun p => { p with reported := .empty, filter := some 899 })).dev .b (frame 0 0),
     calZeroAnswer (State.place seated (fun p => { p with reported := .empty, filter := some 900 })).dev .b (frame 0 0),
     calZeroAnswer (State.place seated (Place.startCal seated.dev.env true)).dev .a { frame 0 0 with forced := true },
     calZeroAnswer (State.place seated (Place.startCal seated.dev.env true)).dev .a (frame 0 0)] =
    [.ok, .notPermitted, .condition, .range, .wrongState, .ok, .condition, .ok, .busy] ∧
    seated.dev.places.map Place.calRunning = [false] ∧
    (State.place seated (Place.startCal seated.dev.env true)).dev.places.map Place.calRunning = [true] := by decide +kernel

/-- No station at the selectors 0 and 13; the tests of an idle station, of one in a scan, of one pending, and the refusals. -/
theorem witness_LinkTestBeginsOrWaits :
    (frame 0 0).selector.toNat = 0 ∧ 12 < (frame 13 0).selector.toNat ∧ (frame 1 0).selector.toNat = (0 : Code).val + 1 ∧
    linkTestAnswer seated.dev (frame 1 0) = .ok ∧ (seated.dev.station 0).testPending = false ∧ (seated.dev.record 0).scan = none ∧
    linkTestAnswer (settling 997).dev (frame 1 0) = .ok ∧ ((settling 997).dev.record 0).scan.isSome = true ∧
    (after (.linkTest .a (frame 1 0)) (State.opened (settling 997) .a)).dev.station 0 =
      { seated.dev.station 0 with testPending := true } ∧
    linkTestAnswer seated.dev (frame 12 0) = .wrongState ∧
    linkTestAnswer (State.place seated (Place.startCal seated.dev.env true)).dev (frame 1 0) = .busy := by decide +kernel

theorem witness_AcceptMapConfirmsTheCurrentList :
    [acceptMapAnswer seated.dev .a (frame 0 2), acceptMapAnswer seated.dev .a (frame 0 1), acceptMapAnswer seated.dev .a (frame 0 256),
     acceptMapAnswer seated.dev .b (frame 0 2), acceptMapAnswer State.reset.dev .a (frame 0 0)] =
    [.ok, .staleGen, .range, .notPermitted, .wrongState] := by decide +kernel

theorem witness_FreezeHoldsClassesAndVerdicts :
    seated.dev.mode ≠ .frozen ∧ (after (.freeze .a (frame 0 0)) (State.opened seated .a)).dev.mode = .frozen ∧
    (State.place seated (Place.startCal seated.dev.env true)).dev.places.map Place.calRunning = [true] := by decide +kernel

/-- FROZEN at rest for 5000 ms, and for 4999. -/
def resting (since : Nat) : State :=
  State.opened (State.but seated (fun d => { d with
    mode := .frozen, vehicle := { d.vehicle with speed := some 0, speedZero := some since }, time := { now := 6000, past := false } })) .a

theorem witness_UnfreezeReleasesAfterFiveSecondsAtRest :
    [unfreezeAnswer (resting 1000).dev .a, unfreezeAnswer (resting 1001).dev .a, unfreezeAnswer (resting 1000).dev .b,
     unfreezeAnswer seated.dev .a] = [.ok, .condition, .notPermitted, .wrongState] ∧
    (resting 1000).dev.places.map (fun p => (p.calRunning, p.cannotJudge)) = [(false, true)] := by decide +kernel

/-- Station 1's SAMPLE with the answer of its one place complete but for the check byte. -/
def sampled : State :=
  State.onLink (State.bench seated id (fun r => { r with
    excitation := .excited (.known 994), scan := some { start := 990, order := 0, step := .sampling } }))
    (exchange .sample .ss none (some .receiving) (0x21 :: 25 :: workedReadings.bytes))

theorem witness_ASucceededScanMakesAPassOfEachPlace :
    sampled.dev.mapLaw ∧
    checkAnswer .sample (sampled.dev.station 0).count
      (0x21 :: 25 :: workedReadings.bytes ++ [-(byteSum (0x21 :: 25 :: workedReadings.bytes))]) true =
      .accepted { result := .ack, boot := false, excited := true, pattern := false, payload := workedReadings.bytes } ∧
    (sampled.dev.record 0).scan.isSome = true := by decide +kernel

/-- The pass of that answer is the worked case's. -/
theorem test_sampleAnswer : (fun s : State => s.dev.places.map (fun p => (p.total, p.filter, p.pendingClass, p.age)))
    (after (.linkCharacterReceived .onInstant { data := -(byteSum (0x21 :: 25 :: workedReadings.bytes)), mark := false, stop := true }) sampled) =
    [(some 11005, some 10551, some .adult, 0)] := by decide +kernel

/-- Station 1's SAMPLE with the answer of its one place, given its cell words, complete but for the check byte; a calibration runs. -/
def calibrating (samples : Nat) (forced : Bool) (words : Vector Word 12) : State :=
  State.onLink
    (State.place sampled (fun p => { p with
      cal := .running { forced := forced, samples := samples, sums := Vector.replicate 12 (400 * samples), newZeros := none } }))
    (exchange .sample .ss none (some .receiving) (0x21 :: 25 :: ({ words := words, inputs := 0x15 } : Readings).bytes))

/-- The check byte that completes the SAMPLE answer of that state. -/
def lastByte (words : Vector Word 12) : Instr :=
  .linkCharacterReceived .onInstant
    { data := -(byteSum (0x21 :: 25 :: ({ words := words, inputs := 0x15 } : Readings).bytes)), mark := false, stop := true }

/-- The answer that brings the 32nd sample. -/
def sample32 : State := calibrating 31 false (Vector.replicate 12 417)

/-- A sample, the 32nd with its CAL_STORE asked for, and the two aborts. -/
theorem test_calSamples :
    [(calibrating 3 false (Vector.replicate 12 410), Vector.replicate 12 410), (sample32, Vector.replicate 12 417),
     (calibrating 3 false (Vector.replicate 12 3000), Vector.replicate 12 3000),
     (calibrating 3 true (Vector.replicate 12 0xC000), Vector.replicate 12 0xC000)].map
      (fun r => (fun s : State => (s.dev.places.map (fun p => p.cal), s.dev.ss.waiting))
        (after (lastByte r.2) r.1)) =
    [([.running { forced := false, samples := 4, sums := Vector.replicate 12 1610, newZeros := none }], []),
     ([.running { forced := false, samples := 32, sums := Vector.replicate 12 12817, newZeros := some (Vector.replicate 12 401) }],
      [{ station := 0, cmd := .calStore 0 (Vector.replicate 12 401), block := .cu }]),
     ([.ended .abortedDisturbed], []), ([.ended .abortedCell], [])] := by decide +kernel

/-- An empty place with a trim mark fallen and 60 s of EMPTY behind it: its filter falls below occ_off / 2 at the pass. -/
def trimming : State :=
  State.but (State.place (calibrating 0 false (Vector.replicate 12 405)) (fun p => { p with
    cal := .ended .none, reported := .empty, filter := some 100, emptySince := some 1000, trimDue := true, nextTrim := some 70000
    trims := Vector.replicate 12 4 })) (fun d => { d with time := { now := 61000, past := false } })

/-- One trim step of it: each cell one code toward its target; and every premise of the trim clause holds. -/
theorem test_trimStep : trimming.dev.mapLaw ∧
    (after (lastByte (Vector.replicate 12 405)) trimming).dev.places.map (fun p => (p.trims, p.trimDue, p.reported, p.hasFault .driftLimit)) =
      [(#v[5, 3, 5, 5, 3, 5, 5, 5, 5, 5, 5, 5], false, .empty, false)] := by decide +kernel

/-- A place in phase STORING with its CAL_STORE on the link, at attempt 2: answered ACK, answered REFUSED with the boot flag, failed. -/
def storing : State :=
  State.onLink (State.place seated (fun p => { p with
      cal := .running { forced := true, samples := 32, sums := Vector.replicate 12 12800, newZeros := some (Vector.replicate 12 400) }
      trims := Vector.replicate 12 5 }))
    (exchange (.calStore 0 (Vector.replicate 12 400)) .cu (some .noAnswer) (some .awaiting) [])

theorem witness_CalibrationsTakeSamplesTrimsAndStores : sample32.dev.mapLaw := by decide +kernel

theorem witness_CalibrationsTakeSamplesTrimsAndStores_store :
    storing.dev.mapLaw ∧ storing.dev.places.map Place.storing = [true] ∧
    storing.dev.failureOf (exchange (.calStore 0 (Vector.replicate 12 400)) .cu (some .noAnswer) (some .awaiting) []) (.noAnswerTimeout .later) =
      some (.later, .noAnswer) ∧
    checkAnswer (.calStore 0 (Vector.replicate 12 400)) (some 1) ([0x12, 0x00] ++ [0xEE]) true =
      .accepted { result := .refused, boot := true, excited := false, pattern := false, payload := [] } := by decide +kernel

/-- The end of that CAL_STORE: failed; answered ACK; answered REFUSED with the boot flag, which also loads the station again. -/
theorem test_storeEnds :
    (∀ p ∈ (after (.noAnswerTimeout .later) storing).dev.places, p.storedAs (Vector.replicate 12 400) false) ∧
    (∀ p ∈ (after (.linkCharacterReceived .later { data := 0xFF, mark := false, stop := true }) (State.onLink storing
      (exchange (.calStore 0 (Vector.replicate 12 400)) .cu none (some .receiving) [0x01, 0x00]))).dev.places,
      p.storedAs (Vector.replicate 12 400) true) ∧
    (fun s : State => (s.dev.places.map (fun p => decide (p.storedAs (Vector.replicate 12 400) false)), (s.dev.station 0).state))
      (after (.linkCharacterReceived .later { data := 0xEE, mark := false, stop := true }) (State.onLink storing
        (exchange (.calStore 0 (Vector.replicate 12 400)) .cu none (some .receiving) [0x12, 0x00]))) = ([true], .loading) := by decide +kernel

/-! ## Outcomes at the requesting block -/

/-- The characters of an answer but for its check byte. -/
def answerHead (status : Byte) (payload : List Byte) : List Byte := status :: BitVec.ofNat 8 payload.length :: payload

/-- The check byte that completes them. -/
def checkByte (rx : List Byte) : Instr :=
  .linkCharacterReceived .onInstant { data := -(byteSum rx), mark := false, stop := true }

/-- The state with an exchange of station 1 whose answer is complete but for its check byte. -/
def answering (s : State) (cmd : LinkCommand) (b : Block) (status : Byte) (payload : List Byte) : State :=
  State.onLink s (exchange cmd b none (some .receiving) (answerHead status payload))

/-- The state after that answer. -/
def answered (s : State) (cmd : LinkCommand) (b : Block) (status : Byte) (payload : List Byte) : State :=
  after (checkByte (answerHead status payload)) (answering s cmd b status payload)

/-- The outcome of that answer. -/
def outcome (s : State) (cmd : LinkCommand) (b : Block) (status : Byte) (payload : List Byte) : Option (Moment × LinkOutcome) :=
  s.dev.endOf (exchange cmd b none (some .receiving) (answerHead status payload)) (checkByte (answerHead status payload))

/-- The state after attempt 2 of an exchange of station 1 has failed by NO_ANSWER. -/
def failed (s : State) (cmd : LinkCommand) (b : Block) : State :=
  after (.noAnswerTimeout .onInstant) (State.onLink s (exchange cmd b (some .badCheck) (some .awaiting) []))

/-- Station 1 of the seated state in another state, its place listed when the station is. -/
def benchIn (f : Station → Station) : State :=
  State.but (State.bench seated f (fun r => { r with due := none })) (fun d => if (d.station 0).listed then d else { d with places := [] })

/-- Station 1 being probed in the start-up sequence. -/
def probed : State :=
  State.but (benchIn (fun _ => { Station.absent with state := .probing })) (fun d => { d with st := { d.st with startup := some 0 } })

/-- The identity answer of the seat of serial 7 at station 1, and of one of serial 9. -/
def identity (serial code count : Byte) : List Byte := [0, 0, 0, serial, code, count, 0]

theorem witness_IdentifyOutcomesFollowTheIdentityChecks :
    outcome probed .identify .st 0x01 (identity 7 1 1) =
      some (.onInstant, .answered { result := .ack, boot := false, excited := false, pattern := false, payload := identity 7 1 1 } 1) ∧
    (outcome probed .identify .st 0x02 []).isSome = true ∧
    probed.dev.endOf (exchange .identify .st (some .badCheck) (some .awaiting) []) (.noAnswerTimeout .onInstant) =
      some (.onInstant, .failed .noAnswer) ∧
    (probed.dev.station 0).state = .probing ∧ (probed.dev.station 1).state = .absent := by decide +kernel

/-- The probe: taken in, count 0, wrong station code, REFUSED, failed. -/
theorem test_probeOutcomes :
    [answered probed .identify .st 0x01 (identity 7 1 1), answered probed .identify .st 0x01 (identity 7 1 0),
     answered probed .identify .st 0x01 (identity 7 2 1), answered probed .identify .st 0x02 [], failed probed .identify .st].map
      (fun s => ((s.dev.station 0).state, (s.dev.station 0).serial, (s.dev.station 0).count)) =
    [(.loading, some 7, some 1), (.faulted, some 7, none), (.faulted, some 7, some 1), (.faulted, none, none), (.absent, none, none)] := by
  decide +kernel

/-- In the start-up sequence the next station is probed first, then the seat just found is loaded. -/
theorem test_startUpOrder : [answered probed .identify .st 0x01 (identity 7 1 1), failed probed .identify .st].map
      (fun s => ((s.dev.station 1).state, s.dev.ss.waiting.map (fun r => (r.station, r.cmd)))) =
    [(.probing, [(1, .identify), (0, .calRead 0)]), (.probing, [(1, .identify)])] := by decide +kernel

/-- A re-probe: another seat, pattern mode, no answer; a confirming IDENTIFY of the seat, and one REFUSED. -/
theorem test_reProbeOutcomes :
    let silent := benchIn (fun s => { s with state := .silent, failures := 3, silentSince := some 900, nextReprobe := some 1100 })
    let loading := benchIn (fun s => { s with state := .loading, retained := true, load := Vector.replicate 3 none })
    [answered silent .identify .st 0x01 (identity 9 1 1), answered silent .identify .st 0x41 [0, 0, 0, 7, 1, 1, 2], failed silent .identify .st,
     answered loading .identify .st 0x11 (identity 7 1 1), answered loading .identify .st 0x02 []].map
      (fun s => ((s.dev.station 0).state, (s.dev.station 0).retained, s.dev.places.length, s.dev.ss.waiting.map (fun r => r.cmd))) =
    [(.loading, false, 0, [.calRead 0]), (.loading, true, 1, [.patternOff]), (.silent, false, 1, []), (.loading, true, 1, [.calRead 0]),
     (.absent, false, 0, [])] := by decide +kernel

/-- A retained station loading its one place. -/
def reloading : State := benchIn (fun s => { s with state := .loading, retained := true, load := Vector.replicate 3 none })

/-- The calibration that the node of the tests stores. -/
def stored : List Byte := (List.replicate 12 [0x01, 0x90]).flatten ++ (List.replicate 12 [0x01, 0x00]).flatten

theorem witness_LoadingReadsEveryPlaceAndBecomesTesting :
    reloading.dev.mapLaw ∧ (outcome reloading (.calRead 0) .st 0x01 stored).isSome = true ∧
    (reloading.dev.station 0).state = .loading ∧ (reloading.dev.station 0).readsNext 0 ∧ reloading.dev.places.length = 1 := by
  decide +kernel

/-- PATTERN_OFF goes on to the CAL_READ, the last CAL_READ to TESTING with the place reloaded; a boot flag starts again; REFUSED ends. -/
theorem test_loadingOutcomes :
    [answered reloading .patternOff .st 0x01 [], answered reloading (.calRead 0) .st 0x01 stored, answered reloading (.calRead 0) .st 0x11 stored,
     answered reloading (.calRead 0) .st 0x02 []].map
      (fun s => ((s.dev.station 0).state, s.dev.ss.waiting.map (fun r => r.cmd), s.dev.places.map (fun p => (p.filter, p.refZeros[2])))) =
    [(.loading, [.calRead 0], [(some 10400, 380)]), (.testing, [.patternOn], [(none, 400)]), (.loading, [.identify], [(some 10400, 380)]),
     (.absent, [], [])] := by decide +kernel

/-- Station 1 in a step of the pattern test, retained. -/
def testing (step : TestStep) : State := benchIn (fun s => { s with state := .testing, retained := true, test := some step })

theorem witness_ThePatternTestEndsActiveFaultedOrAbsent :
    [(TestStep.patternOn false, LinkCommand.patternOn, (0x01 : Byte), ([] : List Byte)), (.relax, .relax, 0x01, []),
     (.sample, .sample, 0x41, patternPlace), (.patternOff true, .patternOff, 0x01, []), (.patternOff false, .patternOff, 0x02, [])].all
      (fun r => (outcome (testing r.1) r.2.1 .st r.2.2.1 r.2.2.2).isSome && decide (((testing r.1).dev.station 0).test = some r.1)) = true ∧
    (List.replicate 6 [0x0A, 0xAA, 0x05, 0x55]).flatten ++ [0x5A] = patternPlace := by decide +kernel

theorem test_patternOutcomes :
    [answered (testing (.patternOn false)) .patternOn .st 0x01 [], answered (testing (.patternOn false)) .patternOn .st 0x22 [],
     answered (testing (.patternOn true)) .patternOn .st 0x22 [], answered (testing .relax) .relax .st 0x01 [],
     answered (testing .sample) .sample .st 0x41 patternPlace, answered (testing .sample) .sample .st 0x41 (patternPlace.set 24 0x59),
     answered (testing (.patternOff true)) .patternOff .st 0x01 [], failed (testing (.patternOff true)) .patternOff .st,
     failed (testing (.patternOff false)) .patternOff .st].map
      (fun s => ((s.dev.station 0).state, s.dev.ss.waiting.map (fun r => r.cmd), s.dev.places.map (fun p => p.hasFault .linkPattern))) =
    [(.testing, [.sample], [false]), (.testing, [.relax], [false]), (.absent, [], []), (.testing, [.patternOn], [false]),
     (.testing, [.patternOff], [false]), (.testing, [.patternOff], [true]), (.active, [], [false]), (.absent, [], []), (.faulted, [], [])] := by
  decide +kernel

/-- Station 1 in a step of a scan, with failures behind it. -/
def scanning (step : ScanStep) (failures : Nat) : State :=
  State.bench seated (fun s => { s with failures := failures }) (fun r => { r with scan := some { start := 990, order := 0, step := step } })

theorem witness_ScanExchangesSettleRelaxOrEndTheScan :
    (scanning .exciting 0).dev.mapLaw ∧ (outcome (scanning .exciting 0) .excite .ss 0x21 []).isSome = true ∧
    ((scanning .exciting 0).dev.record 0).scan = some { start := 990, order := 0, step := .exciting } := by decide +kernel

/-- EXCITE: ACK, REFUSED excited, REFUSED, boot flag; SAMPLE: NOT_EXCITED; RELAX: ACK, failed as the third failure. -/
theorem test_scanOutcomes :
    [answered (scanning .exciting 0) .excite .ss 0x21 [], answered (scanning .exciting 0) .excite .ss 0x22 [],
     answered (scanning .exciting 0) .excite .ss 0x02 [], answered (scanning .exciting 0) .excite .ss 0x31 [],
     answered (scanning .sampling 0) .sample .ss 0x03 [], answered (scanning .relaxing 1) .relax .ss 0x01 [],
     failed (scanning .relaxing 2) .relax .ss].map
      (fun s => ((s.dev.station 0).state, (s.dev.station 0).failures, (s.dev.record 0).scan.map (fun sc => sc.step))) =
    [(.active, 0, some .settling), (.active, 0, some .relaxing), (.active, 1, none), (.loading, 0, none), (.active, 0, some .relaxing),
     (.active, 2, none), (.silent, 3, none)] := by decide +kernel

/-! ## The reminder's stages -/

/-- An unbelted place in a stage, with a flag, at a speed known or not. -/
def staged (stage : Stage) (timer : Nat) (fastened : Bool) (speed : Option Nat) : State :=
  State.place (State.but seated (fun d => { d with vehicle := { d.vehicle with speed := speed } }))
    (fun p => { p with stage := stage, timer := timer, fastened := fastened, buckle := .unlatched })

/-- Stage and timer after each transition of R147 to R150: OFF to WATCH, LAMP and CHIME, WATCH kept and to LAMP, LAMP to CHIME, CHIME to
LAPSED, the hold, and OFF for a fastened place. -/
theorem test_stages :
    [staged .off 0 false (some 9), staged .off 0 false (some 10), staged .off 0 true (some 20), staged .off 0 true (some 19),
     staged .watch 0 false (some 9), staged .watch 0 false (some 10), staged .lamp 20000 false (some 20), staged .lamp 20000 false (some 19),
     staged .chime 90000 false (some 0), staged .chime 90000 false none, staged .lapsed 0 false (some 0),
     State.place (staged .lapsed 0 false (some 0)) (fun p => { p with buckle := .latched })].map
      (fun s => s.dev.places.map s.dev.stageAfter) =
    [[(.watch, 0)], [(.lamp, 0)], [(.chime, 0)], [(.lamp, 0)], [(.watch, 0)], [(.lamp, 0)], [(.chime, 0)], [(.lamp, 20000)], [(.lapsed, 0)],
     [(.chime, 90000)], [(.lapsed, 0)], [(.off, 0)]] := by decide +kernel

/-- VEHICLE_STATE: ignition ON with the belt LATCHED sets the flag; at 12 km/h WATCH goes to LAMP with its mark; SET_PARAM of v_lamp to
the speed in force does so too, and one of v_fast moves nothing. -/
theorem test_stageEvents :
    [after (.vehicleState .b (frame 0 0x8000)) (State.opened (State.but (State.place seated (fun p => { p with buckle := .latched }))
        (fun d => { d with vehicle := { d.vehicle with ignition := false } })) .b),
     after (.vehicleState .b (frame 0 0x800C)) (State.opened (staged .watch 0 false (some 5)) .b),
     after (.setParam .b (frame 13 5)) (State.opened (staged .watch 0 false (some 5)) .b),
     after (.setParam .a (frame 2 5)) (State.opened (staged .watch 0 false (some 15)) .a)].map
      (fun s => s.dev.places.map (fun p => (p.fastened, p.stage, p.marked .a .reminder))) =
    [[(true, .off, false)], [(false, .lamp, true)], [(false, .lamp, true)], [(false, .watch, false)]] := by decide +kernel

/-! ## A list change and the table's words -/

/-- Station 1 seated, and station 2 at the end of a matching pattern test, its PATTERN_OFF answered but for the check byte; the lamp of
place 0 is lit. -/
def joining : State :=
  State.but (State.place (answering seated .patternOff .st 0x01 []) (fun p => { p with stage := .lamp }))
    (fun d => ({ (d.setStation 1 { d.station 0 with state := .active }).setStation 0
        { d.station 0 with state := .testing, serial := some 9, test := some (.patternOff true) } with
      places := d.places.map (fun p => { p with id := { p.id with station := 1 } })
      ss := { d.ss with records := (d.ss.records.set 0 ScanRecord.reset).set 1 { ScanRecord.reset with due := some 990 } } } : Device).finish)

theorem witness_AListChangeMovesRecordsAndAddsFreshOnes : joining.dev.mapLaw ∧ joining.dev.listLaw := by decide +kernel

/-- The place of station 2 moves to number 1 with MAP and its lamp's REMINDER; number 0 is the new place of station 1. -/
theorem test_listChange :
    (fun s : State => s.dev.places.map (fun p => (p.id.station, p.filter, p.stage, p.age, p.marked .a .map, p.marked .b .reminder)))
      (after (checkByte [0x01, 0x00]) joining) =
      [(0, none, .off, 65535, true, true), (1, some 10400, .lamp, 40, true, true)] ∧
    (after (checkByte [0x01, 0x00]) joining).dev.agg.lampMask = 2 ∧ joining.dev.agg.lampMask = 1 := by decide +kernel

/-- Words 0 to 7 of the seated place, word 8 of no place, the four words of station 1, and word 176. -/
theorem test_tableWords : [0, 1, 2, 3, 4, 5, 6, 7, 8, 128, 129, 130, 131, 132, 176].map (seated.dev.tableWord .a) =
    [0x2808, 10400, 65535, 0x0800, 0x13F0, 0, 0, 40, 0, 0x000C, 0, 7, 0, 0, 0x0005] := by decide +kernel

/-- Every law holds in the state with one place seated, and a step from it answers a next state. -/
theorem witness_lawsOfAStep :
    seated.transferLaw ∧ seated.dev.publishedLaw ∧ seated.dev.stickyLaw ∧ seated.dev.failureRunLaw ∧ seated.dev.vehicleLaw ∧
    (after .ageTick seated).dev.time.now = 1001 := by decide +kernel

theorem witness_mapLaws : seated.dev.mapLaw ∧ seated.dev.listLaw ∧ seated.dev.params.law := by decide +kernel

theorem witness_placeLaws : ∀ p ∈ seated.dev.places, p.loadLaw ∧ p.trimLaw := by decide +kernel

theorem witness_verdictLaws : seated.dev.verdictLaw ∧ seated.dev.reminderLaw := by decide +kernel

/-- The law of the calibrations, with one running. -/
theorem witness_calLaw : (State.place seated (Place.startCal seated.dev.env true)).dev.calLaw ∧
    (State.place seated (Place.startCal seated.dev.env true)).dev.runningCals = 1 := by decide +kernel

/-- A step in FROZEN that stays in it, and a list change at generation 255. -/
theorem witness_FrozenHoldsEveryClassAndVerdict :
    (resting 1001).dev.mode = .frozen ∧ (after .ageTick (resting 1001)).dev.mode = .frozen ∧
    ((after (.silentExpiry 0) (State.but silentFor2s (fun d => { d with generation := 255 }))).dev.generation = 1) ∧
    ((after (.silentExpiry 0) silentFor2s).dev.places = []) := by decide +kernel

end Sys2Proof.Tests
end

section
/-! SUPPORT. What a command can do to the blocks, said once (`exec_event`): it changes nothing, it is RESET, or it is one of the
events of `Device.Event` with the guard of its rule, after which the recomputed values stand for the new state. -/

namespace Sys2Proof.Machine

/-- The events: `Event d c e` says that command `c` found its condition fulfilled in the blocks `d` and makes `e` of them, before the
recomputed values. A request that is answered and has no effect moves the time alone. -/
inductive Device.Event (d : Device) : Instr → Device → Prop
  | quiet : d.lc.quietSeen = false → Event d .linkQuietPassed { d with lc := { d.lc with quietSeen := true } }
  | grant (m : Moment) (choice : Choice) : d.linkFree = true → (d.atMoment m).choose = some choice →
      Event d (.arbiterChoice m) ((d.atMoment m).grant choice)
  | frameSent (m : Moment) (x : Exchange) : d.lc.exchange = some x → x.phase = some .sending →
      Event d (.commandFrameSent m) { d.atMoment m with lc := { d.lc with
        exchange := some { x with phase := some .awaiting, frameEnd := (d.atMoment m).stamp } } }
  | char (m : Moment) (ch : RxChar) (x : Exchange) : d.lc.exchange = some x →
      (x.phase = some .awaiting ∨ x.phase = some .receiving) →
      Event d (.linkCharacterReceived m ch) ((d.atMoment m).takeChar x ch)
  | attemptFailed (c : Instr) (m : Moment) (x : Exchange) (k : FailKind) : d.lc.exchange = some x →
      d.failureOf x c = some (m, k) → Event d c ((d.atMoment m).attemptFailed x k)
  | heldRetry (m : Moment) (x : Exchange) : d.lc.exchange = some x → x.phase = none → d.budgetAllows = true →
      Event d (.exciteRetryStart m) ((d.atMoment m).launchRetry x)
  | settle (c : Code) : Event d (.settlePassed c) (d.setScanStep c .sampling)
  | selfRelax (c : Code) (t : Nat) : (d.record c).excitation.knownTime = some t → d.passed t 20 = true →
      Event d (.selfRelaxExpiry c)
        (if d.sampleNotBegun c then (d.setExcitation c (.recovering (t + 22))).scanFailed c
         else d.setExcitation c (.recovering (t + 22)))
  | unknownExpiry (c : Code) (t : Nat) : (d.record c).excitation = .excited (.unknown t) → d.passed t 20 = true →
      Event d (.excitedUnknownExpiry c) (d.setExcitation c (.recovering (t + 22)))
  | recoveryEnd (c : Code) (ends : Nat) : (d.record c).excitation = .recovering ends → ends ≤ d.time.now →
      Event d (.recoveryEnd c) (d.setExcitation c .relaxed)
  | tick : Event d .ageTick { d with time := { now := d.time.now + 1, past := false }, places := d.places.map (Place.tick d.env) }
  | freshnessLoss (n : Nat) (p : Place) : d.places[n]? = some p → p.fresh = true → 401 ≤ p.age →
      Event d (.freshnessLoss n) (d.modifyPlace n (Place.loseFreshness d.env))
  | nodeSilent (n : Nat) (p : Place) : d.places[n]? = some p → p.fresh = false → d.passed p.joinStamp 401 = true →
      Event d (.nodeSilentAfterJoin n) (d.modifyPlace n (fun p => p.setFault .nodeSilent true))
  | probeMark (t : Nat) : d.st.nextProbe = some t → t ≤ d.time.now → Event d .probeMark (d.probeMark t)
  | reProbeMark (c : Code) (t : Nat) : (d.station c).nextReprobe = some t → (d.station c).state = .silent → t ≤ d.time.now →
      Event d (.reProbeMark c) (d.reProbeMark c t)
  | silentExpiry (c : Code) (t : Nat) : (d.station c).silentSince = some t → (d.station c).state = .silent →
      d.passed t 2000 = true → d.reProbeInFlight c = false → Event d (.silentExpiry c) (d.toAbsent c).rebuild
  | startupLimit : d.startupDone = false → 400 ≤ d.time.now → Event d .startupTimeLimit d.completeStartup
  | lapse (t : Nat) : d.vehicle.lapseStart = some t → d.passed t 500 = true → Event d .lapseExpiry d.lapse
  | lampTimer (n : Nat) (p : Place) : d.places[n]? = some p → p.stage = .lamp → d.params.tLamp * 1000 ≤ p.timer →
      Event d (.lampTimerReached n) (d.modifyPlace n (fun p => p.remind d.env p d.env))
  | chimeTimer (n : Nat) (p : Place) : d.places[n]? = some p → p.stage = .chime → d.params.tChime * 1000 ≤ p.timer →
      Event d (.chimeTimerReached n) (d.modifyPlace n (fun p => p.remind d.env p d.env))
  | trimMark (n : Nat) (p : Place) (t : Nat) : d.places[n]? = some p → p.nextTrim = some t → t ≤ d.time.now →
      Event d (.trimMark n) (d.modifyPlace n (fun p => { p with trimDue := true, nextTrim := some (t + 10000) }))
  | noEffect (c : Instr) (m : Moment) : Event d c (d.atMoment m)
  | placeStatus (p : Port) (f : Frame) :
      Event d (.placeStatus p f) ((d.atMoment f.moment).modifyPlace f.selector.toNat (fun q => q.clearRead p))
  | tableRead (p : Port) (f : Frame) :
      Event d (.tableRead p f)
        { d.atMoment f.moment with places := clearRun p f.selector.toNat f.value.toNat 0 (d.atMoment f.moment).places }
  | globalFaultsRead (p : Port) (f : Frame) :
      Event d (.faultsRead p f) ((d.atMoment f.moment).setReport p { (d.atMoment f.moment).report.get p with globalMark := false })
  | placeFaultsRead (p : Port) (f : Frame) :
      Event d (.faultsRead p f) ((d.atMoment f.moment).modifyPlace f.selector.toNat (fun q => q.clearFault p))
  | globalFaultsClear (p : Port) (f : Frame) :
      Event d (.faultsClear p f) ((d.atMoment f.moment).setReport p
        { (d.atMoment f.moment).report.get p with globalMark := false, stickyGlobal := (d.atMoment f.moment).live })
  | placeFaultsClear (p : Port) (f : Frame) :
      Event d (.faultsClear p f) ((d.atMoment f.moment).modifyPlace f.selector.toNat (fun q => (q.clearSticky p).clearFault p))
  | setParam (p : Port) (f : Frame) (row : ParamRow) : paramRow f.selector.toNat = some row → row.owner = p → d.mode ≠ .frozen →
      row.low ≤ f.value.toNat → f.value.toNat ≤ row.high →
      (d.params.write f.selector.toNat f.value.toNat).consistentFor f.selector.toNat = true →
      Event d (.setParam p f) ((d.atMoment f.moment).writeParam f.selector.toNat f.value.toNat)
  | setPolicy (p : Port) (f : Frame) (q : Place) : d.places[f.selector.toNat]? = some q →
      Event d (.setPolicy p f)
        ((d.atMoment f.moment).modifyPlace f.selector.toNat (Place.writePolicy (d.atMoment f.moment).env f.value))
  | setAttn (p : Port) (f : Frame) :
      Event d (.setAttn p f) ((d.atMoment f.moment).setReport p
        { (d.atMoment f.moment).report.get p with enable := f.value.extractLsb' 0 7 })
  | vehicleState (f : Frame) :
      Event d (.vehicleState .b f) ((d.atMoment f.moment).supply (f.value.getLsbD 15) (f.value.extractLsb' 0 8).toNat)
  | calZero (p : Port) (f : Frame) : (d.atMoment f.moment).calAnswer p f.forced f.selector.toNat = .start →
      Event d (.calZero p f)
        ((d.atMoment f.moment).modifyPlace f.selector.toNat (Place.startCal (d.atMoment f.moment).env f.forced))
  | linkTest (p : Port) (f : Frame) (c : Code) : stationSelector f = some c → d.mode ≠ .frozen → (d.station c).state = .active →
      d.calibrating c = false → (d.station c).testPending = false →
      Event d (.linkTest p f)
        (((d.atMoment f.moment).setStation c { d.station c with testPending := true }).takeUpTest c)
  | acceptMap (f : Frame) : d.mode = .run → Event d (.acceptMap .a f) (d.atMoment f.moment).acceptMap
  | freeze (f : Frame) : d.mode ≠ .frozen → Event d (.freeze .a f) (d.atMoment f.moment).freeze
  | unfreeze (f : Frame) : d.mode = .frozen → (d.atMoment f.moment).standing = true →
      Event d (.unfreeze .a f) (d.atMoment f.moment).unfreeze

/-- From `s` to `t` a command changed no block, or took one event of the blocks. -/
def State.tookEvent (s : State) (c : Instr) (t : State) : Prop :=
  t.dev = s.dev ∨ ∃ e : Device, s.dev.Event c e ∧ t.dev = e.finish

theorem State.tookEvent_refl (s : State) (c : Instr) : s.tookEvent c s := .inl rfl

/-- A guarded event: it is taken when its condition holds, and changes nothing when it does not. -/
theorem State.tookEvent_of_guarded {s t : State} {c : Instr} {f : Device → Device} {P : Prop} [Decidable P]
    (h : (if P then s.event f else .next s) = .next t) (he : P → s.dev.Event c (f s.dev)) : s.tookEvent c t := by
  split at h
  · rename_i hp; cases h; exact .inr ⟨_, he hp, rfl⟩
  · cases h; exact s.tookEvent_refl c

/-- A request takes the event that its rule makes of the blocks, when a frame is open. -/
theorem State.tookEvent_of_request {s t : State} {p : Port} {f : Frame} {code : BitVec 6} {rule : Device → PortUnit → Reply} {c : Instr}
    (h : s.takeRequest p f code rule = .next t) (he : ∀ u : PortUnit, s.dev.Event c (rule (s.dev.atMoment f.moment) u).dev) :
    s.tookEvent c t := by
  unfold State.takeRequest at h
  split at h
  · cases h; exact .inr ⟨_, he _, rfl⟩
  · cases h; exact s.tookEvent_refl c

/-- An attempt that a timeout ends takes that failure's event. -/
theorem State.tookEvent_of_attemptEnds {s t : State} {c : Instr} {m : Moment} {phase : Phase} {k : FailKind}
    (h : s.attemptEnds m phase k = .next t)
    (hf : ∀ x : Exchange, x.phase = some phase → s.dev.failureOf x c = some (m, k)) : s.tookEvent c t := by
  unfold State.attemptEnds at h
  split at h
  · rename_i x hx; exact tookEvent_of_guarded h fun hp => .attemptFailed c m x k hx (hf x hp)
  · cases h; exact s.tookEvent_refl c

/-! ## What the rules of the requests make of the blocks -/

variable (d : Device) (p : Port) (f : Frame) (u : PortUnit)

theorem Device.event_readNext : d.Event (.readNext p f) (readNextRule (d.atMoment f.moment) u).dev := by
  unfold readNextRule; split <;> exact .noEffect _ _

theorem Device.event_status : d.Event (.status p f) (statusRule p f (d.atMoment f.moment) u).dev := by
  unfold statusRule; split <;> exact .noEffect _ _

theorem Device.event_placeStatus : d.Event (.placeStatus p f) (placeStatusRule p f (d.atMoment f.moment) u).dev := by
  unfold placeStatusRule; split
  · exact .placeStatus p f
  · exact .noEffect _ _

theorem Device.event_tableRead : d.Event (.tableRead p f) (tableReadRule p f (d.atMoment f.moment) u).dev := by
  unfold tableReadRule; simp only; split
  · exact .noEffect _ _
  · exact .tableRead p f

theorem Device.event_faultsRead : d.Event (.faultsRead p f) (faultsReadRule p f (d.atMoment f.moment) u).dev := by
  unfold faultsReadRule; split
  · exact .globalFaultsRead p f
  · split
    · exact .placeFaultsRead p f
    · exact .noEffect _ _

theorem Device.event_faultsClear : d.Event (.faultsClear p f) (faultsClearRule p f (d.atMoment f.moment) u).dev := by
  unfold faultsClearRule; split
  · exact .globalFaultsClear p f
  · split
    · exact .placeFaultsClear p f
    · exact .noEffect _ _

theorem Device.event_reminderSummary : d.Event (.reminderSummary p f) (reminderSummaryRule f (d.atMoment f.moment) u).dev := by
  unfold reminderSummaryRule; repeat' split
  all_goals exact .noEffect _ _

theorem Device.event_setParam : d.Event (.setParam p f) (setParamRule p f (d.atMoment f.moment) u).dev := by
  unfold setParamRule; simp only [Device.atMoment_params, Device.atMoment_mode]
  split
  · exact .noEffect _ _
  · rename_i row hrow
    by_cases ho : row.owner = p
    · by_cases hm : d.mode = .frozen
      · rw [if_neg (not_not.2 ho), if_pos hm]; exact .noEffect _ _
      · rw [if_neg (not_not.2 ho), if_neg hm]
        split
        · exact .noEffect _ _
        · rename_i hr
          obtain ⟨hlow, hhigh⟩ := not_or.1 hr
          split
          · rename_i hc; exact .setParam p f row hrow ho hm (not_lt.1 hlow) (not_lt.1 hhigh) hc
          · exact .noEffect _ _
    · rw [if_pos ho]; exact .noEffect _ _

theorem Device.event_setPolicy : d.Event (.setPolicy p f) (setPolicyRule p f (d.atMoment f.moment) u).dev := by
  unfold setPolicyRule; simp only [Device.atMoment_places]
  split
  · exact .noEffect _ _
  · split
    · exact .noEffect _ _
    · split
      · exact .noEffect _ _
      · rename_i q hq; exact .setPolicy p f q hq

theorem Device.event_setAttn : d.Event (.setAttn p f) (setAttnRule p f (d.atMoment f.moment) u).dev := by
  unfold setAttnRule; split
  · exact .noEffect _ _
  · exact .setAttn p f

theorem Device.event_vehicleState : d.Event (.vehicleState p f) (vehicleStateRule p f (d.atMoment f.moment) u).dev := by
  unfold vehicleStateRule
  cases p with
  | a => exact .noEffect _ _
  | b =>
    simp only [reduceCtorEq, if_false]
    split
    · exact .noEffect _ _
    · exact .vehicleState f

theorem Device.event_calZero : d.Event (.calZero p f) (calZeroRule p f (d.atMoment f.moment) u).dev := by
  unfold calZeroRule; simp only; split
  · exact .noEffect _ _
  · exact .noEffect _ _
  · rename_i h; exact .calZero p f h

theorem Device.event_linkTest : d.Event (.linkTest p f) (linkTestRule f (d.atMoment f.moment) u).dev := by
  unfold linkTestRule; simp only [Device.atMoment_station, Device.atMoment_mode, Device.atMoment_calibrating]
  split
  · exact .noEffect _ _
  · rename_i c hc
    by_cases hm : d.mode = .frozen
    · rw [if_pos hm]; exact .noEffect _ _
    rw [if_neg hm]
    by_cases ha : (d.station c).state = .active
    · rw [if_neg (not_not.2 ha)]
      split
      · exact .noEffect _ _
      · rename_i hcal
        split
        · exact .noEffect _ _
        · rename_i ht
          exact .linkTest p f c hc hm ha (Bool.eq_false_iff.2 hcal) (Bool.eq_false_iff.2 ht)
    · rw [if_pos ha]; exact .noEffect _ _

theorem Device.event_acceptMap : d.Event (.acceptMap p f) (acceptMapRule p f (d.atMoment f.moment) u).dev := by
  unfold acceptMapRule
  cases p with
  | b => exact .noEffect _ _
  | a =>
    by_cases hm : d.mode = .run
    · simp only [reduceCtorEq, if_false, Device.atMoment_mode, hm, ne_eq, not_true_eq_false]
      split
      · exact .noEffect _ _
      · split
        · exact .noEffect _ _
        · exact .acceptMap f hm
    · simp only [reduceCtorEq, if_false, Device.atMoment_mode, ne_eq, hm, not_false_eq_true, if_true]
      exact .noEffect _ _

theorem Device.event_freeze : d.Event (.freeze p f) (freezeRule p (d.atMoment f.moment) u).dev := by
  unfold freezeRule
  cases p with
  | b => exact .noEffect _ _
  | a =>
    by_cases hm : d.mode = .frozen
    · simp only [reduceCtorEq, if_false, Device.atMoment_mode, hm, if_true]; exact .noEffect _ _
    · simp only [reduceCtorEq, if_false, Device.atMoment_mode, hm]; exact .freeze f hm

theorem Device.event_unfreeze : d.Event (.unfreeze p f) (unfreezeRule p (d.atMoment f.moment) u).dev := by
  unfold unfreezeRule
  cases p with
  | b => exact .noEffect _ _
  | a =>
    by_cases hm : d.mode = .frozen
    · simp only [reduceCtorEq, if_false, Device.atMoment_mode, hm, ne_eq, not_true_eq_false]
      split
      · rename_i hs; exact .unfreeze f hm hs
      · exact .noEffect _ _
    · simp only [reduceCtorEq, if_false, Device.atMoment_mode, ne_eq, hm, not_false_eq_true, if_true]
      exact .noEffect _ _

/-! ## The inversion -/

/-- What a command other than RESET can do to the blocks: nothing, or one event. -/
theorem exec_event {c : Instr} {s t : State} (h : exec c s = .next t) (hc : c ≠ .reset) : s.tookEvent c t := by
  cases c with
  | reset => exact absurd rfl hc
  | linkQuietPassed =>
    simp only [exec, execLinkQuietPassed] at h
    split at h
    · cases h; exact s.tookEvent_refl _
    · rename_i hq; cases h; exact .inr ⟨_, .quiet (Bool.eq_false_iff.2 hq), rfl⟩
  | arbiterChoice m =>
    simp only [exec, execArbiterChoice] at h
    split at h
    · rename_i hf
      split at h
      · rename_i choice hch; cases h; exact .inr ⟨_, .grant m choice hf hch, rfl⟩
      · cases h; exact s.tookEvent_refl _
    · cases h; exact s.tookEvent_refl _
  | commandFrameSent m =>
    simp only [exec, execCommandFrameSent] at h
    split at h
    · rename_i x hx; exact State.tookEvent_of_guarded h fun hp => .frameSent m x hx hp
    · cases h; exact s.tookEvent_refl _
  | linkCharacterReceived m ch =>
    simp only [exec, execLinkCharacterReceived] at h
    split at h
    · rename_i x hx; exact State.tookEvent_of_guarded h fun hp => .char m ch x hx hp
    · cases h; exact s.tookEvent_refl _
  | noAnswerTimeout m => exact State.tookEvent_of_attemptEnds h fun x hp => if_pos hp
  | truncatedTimeout m => exact State.tookEvent_of_attemptEnds h fun x hp => if_pos hp
  | drainQuietTimeout m => exact State.tookEvent_of_attemptEnds h fun x hp => if_pos hp
  | exciteRetryStart m =>
    simp only [exec, execExciteRetryStart] at h
    split at h
    · rename_i x hx; exact State.tookEvent_of_guarded h fun hp => .heldRetry m x hx hp.1 hp.2
    · cases h; exact s.tookEvent_refl _
  | settlePassed c =>
    simp only [exec, execSettlePassed] at h
    split at h
    · exact State.tookEvent_of_guarded h fun _ => .settle c
    · cases h; exact s.tookEvent_refl _
  | selfRelaxExpiry c =>
    simp only [exec, execSelfRelaxExpiry] at h
    split at h
    · rename_i t' ht; exact State.tookEvent_of_guarded h fun hp => .selfRelax c t' ht hp
    · cases h; exact s.tookEvent_refl _
  | excitedUnknownExpiry c =>
    simp only [exec, execExcitedUnknownExpiry] at h
    split at h
    · rename_i t' ht; exact State.tookEvent_of_guarded h fun hp => .unknownExpiry c t' ht hp
    · cases h; exact s.tookEvent_refl _
  | recoveryEnd c =>
    simp only [exec, execRecoveryEnd] at h
    split at h
    · rename_i ends he; exact State.tookEvent_of_guarded h fun hp => .recoveryEnd c ends he hp
    · cases h; exact s.tookEvent_refl _
  | dueTimeReached c => cases h; exact s.tookEvent_refl _
  | budgetEntryAged => cases h; exact s.tookEvent_refl _
  | ageTick => cases h; exact .inr ⟨_, .tick, rfl⟩
  | freshnessLoss n =>
    simp only [exec, execFreshnessLoss] at h
    split at h
    · rename_i p hp; exact State.tookEvent_of_guarded h fun hg => .freshnessLoss n p hp hg.1 hg.2
    · cases h; exact s.tookEvent_refl _
  | nodeSilentAfterJoin n =>
    simp only [exec, execNodeSilentAfterJoin] at h
    split at h
    · rename_i p hp; exact State.tookEvent_of_guarded h fun hg => .nodeSilent n p hp hg.1 hg.2
    · cases h; exact s.tookEvent_refl _
  | probeMark =>
    simp only [exec, execProbeMark] at h
    split at h
    · rename_i t' ht; exact State.tookEvent_of_guarded h fun hp => .probeMark t' ht hp
    · cases h; exact s.tookEvent_refl _
  | reProbeMark c =>
    simp only [exec, execReProbeMark] at h
    split at h
    · rename_i t' ht; exact State.tookEvent_of_guarded h fun hp => .reProbeMark c t' ht hp.1 hp.2
    · cases h; exact s.tookEvent_refl _
  | silentExpiry c =>
    simp only [exec, execSilentExpiry] at h
    split at h
    · rename_i t' ht
      exact State.tookEvent_of_guarded h fun ⟨hs, hp, hf⟩ => .silentExpiry c t' ht hs hp hf
    · cases h; exact s.tookEvent_refl _
  | startupTimeLimit =>
    simp only [exec, execStartupTimeLimit] at h
    exact State.tookEvent_of_guarded h fun hg => .startupLimit hg.1 hg.2
  | lapseExpiry =>
    simp only [exec, execLapseExpiry] at h
    split at h
    · rename_i t' ht; exact State.tookEvent_of_guarded h fun hp => .lapse t' ht hp
    · cases h; exact s.tookEvent_refl _
  | lampTimerReached n =>
    simp only [exec, execLampTimerReached] at h
    split at h
    · rename_i p hp; exact State.tookEvent_of_guarded h fun hg => .lampTimer n p hp hg.1 hg.2
    · cases h; exact s.tookEvent_refl _
  | chimeTimerReached n =>
    simp only [exec, execChimeTimerReached] at h
    split at h
    · rename_i p hp; exact State.tookEvent_of_guarded h fun hg => .chimeTimer n p hp hg.1 hg.2
    · cases h; exact s.tookEvent_refl _
  | trimMark n =>
    simp only [exec, execTrimMark] at h
    split at h
    · rename_i p hp
      split at h
      · rename_i t' ht; exact State.tookEvent_of_guarded h fun hg => .trimMark n p t' hp ht hg
      · cases h; exact s.tookEvent_refl _
    · cases h; exact s.tookEvent_refl _
  | chipSelectFall p =>
    simp only [exec, execChipSelectFall] at h
    split at h <;> (cases h; exact .inl rfl)
  | badFrame p bits =>
    simp only [exec, execBadFrame] at h
    split at h
    · split at h <;> (cases h; exact .inl rfl)
    · cases h; exact .inl rfl
  | illegalRequest p code f =>
    simp only [exec, execIllegalRequest] at h
    split at h
    · exact State.tookEvent_of_request h fun _ => .noEffect _ _
    · cases h; exact s.tookEvent_refl _
  | readNext p f => exact State.tookEvent_of_request h (s.dev.event_readNext p f)
  | status p f => exact State.tookEvent_of_request h (s.dev.event_status p f)
  | placeStatus p f => exact State.tookEvent_of_request h (s.dev.event_placeStatus p f)
  | tableRead p f => exact State.tookEvent_of_request h (s.dev.event_tableRead p f)
  | changes p f => exact State.tookEvent_of_request h fun _ => .noEffect _ _
  | faultsRead p f => exact State.tookEvent_of_request h (s.dev.event_faultsRead p f)
  | faultsClear p f => exact State.tookEvent_of_request h (s.dev.event_faultsClear p f)
  | reminderSummary p f => exact State.tookEvent_of_request h (s.dev.event_reminderSummary p f)
  | setParam p f => exact State.tookEvent_of_request h (s.dev.event_setParam p f)
  | setPolicy p f => exact State.tookEvent_of_request h (s.dev.event_setPolicy p f)
  | setAttn p f => exact State.tookEvent_of_request h (s.dev.event_setAttn p f)
  | vehicleState p f => exact State.tookEvent_of_request h (s.dev.event_vehicleState p f)
  | calZero p f => exact State.tookEvent_of_request h (s.dev.event_calZero p f)
  | linkTest p f => exact State.tookEvent_of_request h (s.dev.event_linkTest p f)
  | acceptMap p f => exact State.tookEvent_of_request h (s.dev.event_acceptMap p f)
  | freeze p f => exact State.tookEvent_of_request h (s.dev.event_freeze p f)
  | unfreeze p f => exact State.tookEvent_of_request h (s.dev.event_unfreeze p f)
  | chipSelectHighAfterReset p => cases h; exact .inl rfl

/-- A law of the blocks that holds at reset, that the end of an event keeps, and that every event keeps, is kept by every step. -/
theorem Device.law_kept_by_step {P : Device → Prop} (hreset : P Device.reset) (hfinish : ∀ d, P d → P d.finish)
    (hevent : ∀ d c e, P d → d.Event c e → P e) {s t : State} (hs : P s.dev) (h : step s = .next t) : P t.dev := by
  unfold step at h
  split at h
  · cases h; exact hs
  · rename_i c rest _
    by_cases hc : c = .reset
    · subst hc; cases h; exact hreset
    · rcases exec_event h hc with he | ⟨e, he, ht⟩
      · rw [he]; exact hs
      · rw [ht]; exact hfinish e (hevent _ c e hs he)

end Sys2Proof.Machine
end

section
/-! SUPPORT. What PM's rebuild and the end of an exchange leave: the fields they do not touch, the places they list, the station records
and the waiting requests after them. -/

namespace Sys2Proof.Machine

/-! ## Global faults -/

/-- After its condition is set a global fault is live exactly when the condition holds, and every other one is as it was (R174). -/
theorem Device.live_setGlobal (d : Device) (k j : GlobalFault) (on : Bool) :
    (d.setGlobal k on).live.getLsbD j.bit = if j = k then on else d.live.getLsbD j.bit := by
  have hb : ¬ j = k → ¬ j.bit = k.bit := fun h e => h (GlobalFault.bit_inj e)
  unfold Device.setGlobal
  cases on with
  | false =>
    show (withoutBit d.live k.bit).getLsbD j.bit = _
    rw [withoutBit_bit]
    by_cases h : j = k
    · subst h; simp
    · simp [h, hb h]
  | true =>
    rw [if_pos rfl]
    split
    · rename_i hl
      by_cases h : j = k
      · subst h; rw [if_pos rfl, hl]
      · rw [if_neg h]
    · show (withBit d.live k.bit).getLsbD j.bit = _
      rw [withBit_bit]
      by_cases h : j = k
      · subst h; simp [GlobalFault.bit_lt]
      · simp [h, hb h]

/-! ## A new place (R45) -/

/-- The faults that are live on a place as it joins (R172). -/
theorem Device.newPlace_hasFault (d : Device) (id : Identity) (k : FaultKind) :
    (d.newPlace id).hasFault k =
      if k = .nodeRestart then (d.station id.station).restarted
      else if k = .linkPattern then
        (d.station id.station).state == .testing && (d.station id.station).test == some (.patternOff false)
      else if k = .cellCal then ((d.station id.station).valuesOf id.seat).unusable.toList.any (fun b => b)
      else false := by
  unfold Device.newPlace
  simp only [Place.hasFault_setFault]
  have : (freshPlace id ((d.station id.station).valuesOf id.seat) d.stamp).hasFault k = false := by
    simp [Place.hasFault, freshPlace]
  rw [this]

@[simp] theorem Device.newPlace_id (d : Device) (id : Identity) : (d.newPlace id).id = id := by
  simp [Device.newPlace, freshPlace]

/-! ## The rebuild (R43, R45) -/

/-- Two places agree in all but what CL and RU evaluate and RPU marks. -/
abbrev Place.agrees (q p : Place) : Prop :=
  q = { p with verdict := q.verdict, stage := q.stage, timer := q.timer, marks := q.marks }

theorem Place.agrees_mark (p : Place) (k : ChangeKind) : (p.mark k).agrees p := rfl

theorem Place.agrees.trans {p q r : Place} (h : q.agrees p) (h' : r.agrees q) : r.agrees p := by
  unfold Place.agrees at *; rw [h', h]

theorem Place.agrees.hasFault {p q : Place} (h : q.agrees p) (k : FaultKind) : q.hasFault k = p.hasFault k :=
  Place.hasFault_of_live (by rw [h]) k

theorem Place.agrees.id_eq {p q : Place} (h : q.agrees p) : q.id = p.id := by rw [h]

/-- A place is one of the device's, or the new place of its identity. -/
abbrev Device.keptOrNew (d : Device) (p : Place) : Prop := p ∈ d.places ∨ p = d.newPlace p.id

theorem Device.placeAt_agrees (d : Device) (id : Identity) (n : Nat) : ∃ p, d.keptOrNew p ∧ (d.placeAt id n).agrees p := by
  unfold Device.placeAt
  split
  · rename_i p hp
    refine ⟨p, .inl (List.mem_of_find?_eq_some hp), ?_⟩
    split <;> rfl
  · exact ⟨d.newPlace id, .inr (by rw [Device.newPlace_id]), rfl⟩

theorem Device.mem_placesFor (d : Device) {n : Nat} {ids : List Identity} {q : Place} (h : q ∈ d.placesFor n ids) :
    ∃ p, d.keptOrNew p ∧ q.agrees p := by
  induction ids generalizing n with
  | nil => cases h
  | cons id ids ih =>
    rcases List.mem_cons.1 h with rfl | h
    · exact d.placeAt_agrees id n
    · exact ih h

theorem mem_markMoved {before after : Word} {n : Nat} {ps : List Place} {q : Place} (h : q ∈ markMoved before after n ps) :
    ∃ p ∈ ps, q.agrees p := by
  induction ps generalizing n with
  | nil => cases h
  | cons p ps ih =>
    rcases List.mem_cons.1 h with rfl | h
    · refine ⟨p, by simp, ?_⟩; split <;> rfl
    · obtain ⟨p, hp, hq⟩ := ih h; exact ⟨p, by simp [hp], hq⟩

/-- After a rebuild every place is one that stood before or a new one, but for marks. -/
theorem Device.mem_rebuild (d : Device) {q : Place} (h : q ∈ d.rebuild.places) : ∃ p, d.keptOrNew p ∧ q.agrees p := by
  unfold Device.rebuild at h
  simp only [Device.setGlobal_places] at h
  split at h
  · exact ⟨q, .inl h, rfl⟩
  · obtain ⟨r, hr, hq⟩ := mem_markMoved h
    obtain ⟨p, hp, hrp⟩ := d.mem_placesFor hr
    exact ⟨p, hp, hrp.trans hq⟩

/-- A global fault that does not follow the station table is left by a rebuild. -/
theorem Device.rebuild_live (d : Device) (k : GlobalFault) :
    d.rebuild.live.getLsbD k.bit =
      match k with
      | .badStation => (List.finRange 12).any (fun c => (d.station c).state == .faulted)
      | .mapOverflow => d.leftOut d.newList
      | .vehicleLapsed | .linkFault => d.live.getLsbD k.bit := by
  have hl : (if d.newList = d.places.map (·.id) then d else d.changeList d.newList).live = d.live := by split <;> rfl
  unfold Device.rebuild
  cases k <;> simp [Device.live_setGlobal, hl]

section
variable (d : Device)

@[simp] theorem Device.rebuild_time : d.rebuild.time = d.time := by simp only [Device.rebuild, Device.setGlobal_time]; split <;> rfl
@[simp] theorem Device.rebuild_mode : d.rebuild.mode = d.mode := by simp only [Device.rebuild, Device.setGlobal_mode]; split <;> rfl
@[simp] theorem Device.rebuild_lc : d.rebuild.lc = d.lc := by simp only [Device.rebuild, Device.setGlobal_lc]; split <;> rfl
@[simp] theorem Device.rebuild_params : d.rebuild.params = d.params := by
  simp only [Device.rebuild, Device.setGlobal_params]; split <;> rfl
@[simp] theorem Device.rebuild_vehicle : d.rebuild.vehicle = d.vehicle := by
  simp only [Device.rebuild, Device.setGlobal_vehicle]; split <;> rfl
@[simp] theorem Device.rebuild_accepted : d.rebuild.accepted = d.accepted := by
  simp only [Device.rebuild, Device.setGlobal_accepted]; split <;> rfl
@[simp] theorem Device.rebuild_record (k : Code) : d.rebuild.record k = d.record k := by
  simp only [Device.rebuild, Device.setGlobal_record]; split <;> rfl
@[simp] theorem Device.rebuild_history : d.rebuild.ss.history = d.ss.history := by
  simp only [Device.rebuild, Device.setGlobal_ss]; split <;> rfl

end

/-! ### The waiting requests -/

/-- A rebuild leaves the waiting requests, or withdraws those CAL_STOREs whose place no longer stores (R128). -/
theorem Device.rebuild_waiting (d : Device) :
    d.rebuild.ss.waiting = d.ss.waiting ∨ ∃ e : Device, e.ss.waiting = d.ss.waiting ∧ d.rebuild.ss.waiting = e.pruneStores.ss.waiting := by
  simp only [Device.rebuild, Device.setGlobal_ss]
  split
  · exact .inl rfl
  · exact .inr ⟨{ d with
      places := markMoved d.agg.lampMask (lampMaskOf (d.placesFor 0 d.newList)) 0 (d.placesFor 0 d.newList) }, rfl, rfl⟩

theorem Device.mem_pruneStores_waiting {d : Device} {r : LinkRequest} (h : r ∈ d.pruneStores.ss.waiting) : r ∈ d.ss.waiting :=
  List.mem_of_mem_filter h

theorem Device.mem_rebuild_waiting {d : Device} {r : LinkRequest} (h : r ∈ d.rebuild.ss.waiting) : r ∈ d.ss.waiting := by
  rcases d.rebuild_waiting with e | ⟨e, he, hw⟩
  · rwa [e] at h
  · rw [hw] at h; rw [← he]; exact Device.mem_pruneStores_waiting h

/-- The command is no CAL_STORE. -/
def LinkCommand.notStore : LinkCommand → Bool
  | .calStore _ _ => false
  | _ => true

theorem Device.askedLast_pruneStores {d : Device} {c : Code} {cmd : LinkCommand} (hc : cmd.notStore = true) (h : d.askedLast c cmd) :
    d.pruneStores.askedLast c cmd := by
  obtain ⟨front, hf⟩ := List.getLast?_eq_some_iff.1 h
  unfold Device.askedLast Device.pruneStores
  simp only [hf, List.filter_append]
  cases cmd with
  | calStore seat zeros => cases hc
  | _ => exact List.getLast?_concat ..

theorem Device.askedLast_rebuild {d : Device} {c : Code} {cmd : LinkCommand} (hc : cmd.notStore = true) (h : d.askedLast c cmd) :
    d.rebuild.askedLast c cmd := by
  rcases d.rebuild_waiting with e | ⟨e, he, hw⟩
  · unfold Device.askedLast; rw [e]; exact h
  · unfold Device.askedLast
    rw [hw]
    exact Device.askedLast_pruneStores hc (by unfold Device.askedLast; rw [he]; exact h)

/-! ### The station records -/

/-- A station takes nothing back but reference zeros (R45). -/
theorem Station.takeBack_eq (s : Station) (p : Place) : s.takeBack p = { s with values := (s.takeBack p).values } := by
  unfold Station.takeBack; split <;> rfl

theorem Station.takeBack_unlisted {s : Station} (p : Place) (h : s.listed = false) : s.takeBack p = s := by
  unfold Station.takeBack; rw [if_neg]; simp [h]

/-- A relation that `takeBack` respects holds between the records before and after all places are taken back. -/
theorem takeAllBack_rel (R : Station → Station → Prop) (hrefl : ∀ s, R s s) (htrans : ∀ {r s t}, R r s → R s t → R r t)
    (hback : ∀ s p, R s (s.takeBack p)) (v : Vector Station 12) (ps : List Place) (c : Code) : R v[c] (takeAllBack v ps)[c] := by
  induction ps generalizing v with
  | nil => exact hrefl _
  | cons p ps ih =>
    refine htrans ?_ (ih _)
    by_cases h : p.id.station = c
    · subst h; simp; exact hback _ p
    · have hv : (p.id.station : Nat) ≠ c := fun e => h (Fin.ext e)
      simp [hv]; exact hrefl _

/-- A rebuild leaves every station record but for the values handed back to it (R45). -/
theorem Device.rebuild_station_eq (d : Device) (c : Code) :
    d.rebuild.station c = { d.station c with values := (d.rebuild.station c).values } := by
  simp only [Device.rebuild, Device.setGlobal_station]
  split
  · rfl
  · exact takeAllBack_rel (fun s t => t = { s with values := t.values }) (fun _ => rfl) (fun h1 h2 => by rw [h2, h1])
      (fun s p => s.takeBack_eq p) _ _ c

/-- A rebuild leaves the whole record of a station that is not listed. -/
theorem Device.rebuild_station_unlisted (d : Device) (c : Code) (h : (d.station c).listed = false) : d.rebuild.station c = d.station c := by
  simp only [Device.rebuild, Device.setGlobal_station]
  split
  · rfl
  · exact takeAllBack_rel (fun s t => s.listed = false → t = s) (fun _ _ => rfl)
      (fun h1 h2 hr => by have e := h1 hr; rw [h2 (by rw [e]; exact hr), e])
      (fun s p hs => Station.takeBack_unlisted p hs) _ _ c h

/-- No place of a station that is not listed stands in the rebuilt list (R43). -/
theorem Device.rebuild_unlisted (d : Device) (c : Code) (h : (d.station c).listed = false) :
    ∀ q ∈ d.rebuild.places, q.id.station ≠ c := by
  intro q hq e
  have hid : q.id ∈ d.newList := by rw [← d.rebuild_ids]; exact List.mem_map_of_mem hq
  obtain ⟨k, _, hk⟩ := mem_fillList _ _ _ _ hid
  have : k = c := by rw [← e]; exact (d.offered_station k q.id hk).symm
  subst this
  simp [Device.offered, h] at hk

/-! ## Rebuild and start-up completion together, as every exchange ends (R40, R43) -/

/-- The list rebuilt, and start-up completed where its condition then holds. -/
def Device.settled (d : Device) : Device :=
  if d.rebuild.startupFinished then d.rebuild.completeStartup else d.rebuild

/-- LC's part of the end of an exchange: its record and failure run, and the excitation state of R58. -/
def Device.heard (d : Device) (x : Exchange) (o : LinkOutcome) : Device :=
  (d.closeExchange x.station o).setExcitation x.station
    (excitationAfter ((d.closeExchange x.station o).record x.station).excitation x.cmd o x.frameEnd (d.closeExchange x.station o).stamp)

/-- An exchange's outcome at the block that asked for it, and the SILENT expiry that waited for it (R35). -/
def Device.handed (d : Device) (x : Exchange) (o : LinkOutcome) : Device :=
  if x.block = .st then (d.deliver x o).lateExpiry x.station else d.deliver x o

/-- The end of an exchange is these three parts in turn. -/
theorem Device.endExchange_eq (d : Device) (x : Exchange) (o : LinkOutcome) :
    d.endExchange x o = ((d.heard x o).handed x o).settled := rfl

/-- Start-up completion is the identity on a place but for verdict, stage and marks. -/
theorem Place.agrees_modeChanged (e0 e : Env) (p : Place) : (p.modeChanged e0 e).agrees p := by
  unfold Place.modeChanged Place.agrees
  rw [Place.remind_eq, Place.evalVerdict_eq]

theorem Device.mem_completeStartup {d : Device} {q : Place} (h : q ∈ d.completeStartup.places) : ∃ p ∈ d.places, q.agrees p := by
  unfold Device.completeStartup at h
  simp only at h
  split at h
  · obtain ⟨p, hp, rfl⟩ := List.mem_map.1 h
    exact ⟨p, hp, Place.agrees_modeChanged _ _ p⟩
  · exact ⟨q, h, rfl⟩

section
variable (d : Device)

@[simp] theorem Device.completeStartup_time : d.completeStartup.time = d.time := by unfold Device.completeStartup; simp only; split <;> rfl
@[simp] theorem Device.completeStartup_lc : d.completeStartup.lc = d.lc := by unfold Device.completeStartup; simp only; split <;> rfl
@[simp] theorem Device.completeStartup_ss : d.completeStartup.ss = d.ss := by unfold Device.completeStartup; simp only; split <;> rfl
@[simp] theorem Device.completeStartup_params : d.completeStartup.params = d.params := by
  unfold Device.completeStartup; simp only; split <;> rfl
@[simp] theorem Device.completeStartup_vehicle : d.completeStartup.vehicle = d.vehicle := by
  unfold Device.completeStartup; simp only; split <;> rfl
@[simp] theorem Device.completeStartup_accepted : d.completeStartup.accepted = d.accepted := by
  unfold Device.completeStartup; simp only; split <;> rfl
@[simp] theorem Device.completeStartup_live : d.completeStartup.live = d.live := by unfold Device.completeStartup; simp only; split <;> rfl
@[simp] theorem Device.completeStartup_report : d.completeStartup.report = d.report := by
  unfold Device.completeStartup; simp only; split <;> rfl
@[simp] theorem Device.completeStartup_station (c : Code) : d.completeStartup.station c = d.station c := by
  unfold Device.completeStartup; simp only; split <;> rfl
@[simp] theorem Device.completeStartup_record (c : Code) : d.completeStartup.record c = d.record c := by
  unfold Device.completeStartup; simp only; split <;> rfl

/-- What start-up completion leaves of a rebuilt device, `settled` has from the rebuild. -/
theorem Device.settled_of_rebuild {α : Type} (f : Device → α) (hf : ∀ e : Device, f e.completeStartup = f e) :
    f d.settled = f d.rebuild := by
  unfold Device.settled; split
  · exact hf _
  · rfl

@[simp] theorem Device.settled_lc : d.settled.lc = d.lc :=
  (d.settled_of_rebuild Device.lc fun e => e.completeStartup_lc).trans d.rebuild_lc
@[simp] theorem Device.settled_params : d.settled.params = d.params :=
  (d.settled_of_rebuild Device.params fun e => e.completeStartup_params).trans d.rebuild_params
@[simp] theorem Device.settled_vehicle : d.settled.vehicle = d.vehicle :=
  (d.settled_of_rebuild Device.vehicle fun e => e.completeStartup_vehicle).trans d.rebuild_vehicle
@[simp] theorem Device.settled_accepted : d.settled.accepted = d.accepted :=
  (d.settled_of_rebuild Device.accepted fun e => e.completeStartup_accepted).trans d.rebuild_accepted
@[simp] theorem Device.settled_record (c : Code) : d.settled.record c = d.record c :=
  (d.settled_of_rebuild (Device.record · c) fun e => e.completeStartup_record c).trans (d.rebuild_record c)
@[simp] theorem Device.settled_history : d.settled.ss.history = d.ss.history :=
  (d.settled_of_rebuild (·.ss.history) fun e => by rw [e.completeStartup_ss]).trans d.rebuild_history
theorem Device.settled_live : d.settled.live = d.rebuild.live := d.settled_of_rebuild Device.live fun e => e.completeStartup_live
theorem Device.settled_report : d.settled.report = d.rebuild.report :=
  d.settled_of_rebuild Device.report fun e => e.completeStartup_report
theorem Device.settled_waiting : d.settled.ss.waiting = d.rebuild.ss.waiting :=
  d.settled_of_rebuild (·.ss.waiting) fun e => by rw [e.completeStartup_ss]
theorem Device.settled_station (c : Code) : d.settled.station c = d.rebuild.station c :=
  d.settled_of_rebuild (Device.station · c) fun e => e.completeStartup_station c

/-- The station records after the end of an exchange: as the requesting block left them, but for values handed back. -/
theorem Device.settled_station_eq (c : Code) : d.settled.station c = { d.station c with values := (d.settled.station c).values } := by
  rw [Device.settled_station]; exact d.rebuild_station_eq c

/-- LINK_FAULT and VEHICLE_LAPSED do not follow the station table. -/
@[simp] theorem Device.settled_linkFault :
    d.settled.live.getLsbD GlobalFault.linkFault.bit = d.live.getLsbD GlobalFault.linkFault.bit := by
  rw [Device.settled_live, Device.rebuild_live]
@[simp] theorem Device.settled_vehicleLapsed :
    d.settled.live.getLsbD GlobalFault.vehicleLapsed.bit = d.live.getLsbD GlobalFault.vehicleLapsed.bit := by
  rw [Device.settled_live, Device.rebuild_live]

variable {d}

/-- Every place after the end of an exchange is one that the requesting block left, or a new one. -/
theorem Device.mem_settled {q : Place} (h : q ∈ d.settled.places) : ∃ p, d.keptOrNew p ∧ q.agrees p := by
  unfold Device.settled at h
  split at h
  · obtain ⟨r, hr, hq⟩ := Device.mem_completeStartup h
    obtain ⟨p, hp, hrp⟩ := d.mem_rebuild hr
    exact ⟨p, hp, hrp.trans hq⟩
  · exact d.mem_rebuild h

theorem Device.settled_unlisted {c : Code} (h : (d.station c).listed = false) : ∀ q ∈ d.settled.places, q.id.station ≠ c := by
  intro q hq
  unfold Device.settled at hq
  split at hq
  · obtain ⟨r, hr, hqr⟩ := Device.mem_completeStartup hq
    rw [hqr.id_eq]; exact d.rebuild_unlisted c h r hr
  · exact d.rebuild_unlisted c h q hq

theorem Device.askedLast_settled {c : Code} {cmd : LinkCommand} (hc : cmd.notStore = true) (h : d.askedLast c cmd) :
    d.settled.askedLast c cmd := by
  unfold Device.askedLast; rw [Device.settled_waiting]; exact Device.askedLast_rebuild hc h

end

end Sys2Proof.Machine
end

section
/-! SUPPORT. The fault laws through every event: which events leave LINK_FAULT, the failure run, the vehicle record and the sticky sets
alone, and what the others make of them (R12, R139, R140, R174). -/

namespace Sys2Proof.Machine

/-! ## Sticky over live, as sets of bits -/

theorem covers_iff {n : Nat} {s l : BitVec n} : covers s l ↔ ∀ i : Nat, l.getLsbD i = true → s.getLsbD i = true := by
  refine ⟨fun h i hi => ?_, fun h => BitVec.eq_of_getLsbD_eq fun i _ => ?_⟩
  · rw [← h, BitVec.getLsbD_and, Bool.and_eq_true] at hi; exact hi.2
  · rw [BitVec.getLsbD_and]
    cases hl : l.getLsbD i with
    | false => rfl
    | true => rw [h i hl]; rfl

theorem covers_self {n : Nat} (s : BitVec n) : covers s s := BitVec.and_self

theorem covers_withBit {n : Nat} {s l : BitVec n} (i : Nat) (h : covers s l) : covers (withBit s i) (withBit l i) := by
  rw [covers_iff] at h ⊢
  intro j hj
  rw [withBit_bit, Bool.or_eq_true] at hj ⊢
  exact hj.imp_left (h j)

theorem covers_withoutBit {n : Nat} {s l : BitVec n} (i : Nat) (h : covers s l) : covers s (withoutBit l i) := by
  rw [covers_iff] at h ⊢
  intro j hj
  rw [withoutBit_bit, Bool.and_eq_true] at hj
  exact h j hj.1

/-- Both global sticky sets contain the live set. -/
abbrev Device.globalCovered (d : Device) : Prop :=
  covers d.report.a.stickyGlobal d.live ∧ covers d.report.b.stickyGlobal d.live

theorem Device.globalCovered_setGlobal {d : Device} (k : GlobalFault) (on : Bool) (h : d.globalCovered) :
    (d.setGlobal k on).globalCovered := by
  unfold Device.setGlobal
  cases on with
  | false => exact ⟨covers_withoutBit _ h.1, covers_withoutBit _ h.2⟩
  | true =>
    rw [if_pos rfl]
    split
    · exact h
    · exact ⟨covers_withBit _ h.1, covers_withBit _ h.2⟩

/-! ## Events that leave the faults alone -/

/-- From `d` to `e` the failure run, the vehicle record, the global faults and the ports' reports stay, and covered places stay
covered. -/
structure Device.LeavesFaults (d e : Device) : Prop where
  run     : e.lc.failureRun = d.lc.failureRun
  vehicle : e.vehicle = d.vehicle
  live    : e.live = d.live
  report  : e.report = d.report
  places  : (∀ p ∈ d.places, p.covered) → ∀ q ∈ e.places, q.covered

theorem Device.LeavesFaults.trans {d e f : Device} (h : d.LeavesFaults e) (h' : e.LeavesFaults f) : d.LeavesFaults f :=
  ⟨h'.run.trans h.run, h'.vehicle.trans h.vehicle, h'.live.trans h.live, h'.report.trans h.report, fun hp => h'.places (h.places hp)⟩

/-- Blocks other than LC, the places, the vehicle and RPU may have changed. -/
theorem Device.leavesFaults_rest {d e : Device} (h1 : e.lc.failureRun = d.lc.failureRun) (h2 : e.vehicle = d.vehicle)
    (h3 : e.live = d.live) (h4 : e.report = d.report) (h5 : e.places = d.places) : d.LeavesFaults e :=
  ⟨h1, h2, h3, h4, fun hp => by rw [h5]; exact hp⟩

theorem Device.leavesFaults_atMoment (d : Device) (m : Moment) : d.LeavesFaults (d.atMoment m) :=
  leavesFaults_rest (by simp) (by simp) (by simp) (by simp) (by simp)

theorem Device.leavesFaults_mapPlaces (d : Device) {f : Place → Place} (hf : ∀ p, p.covered → (f p).covered) :
    d.LeavesFaults (d.mapPlaces f) :=
  ⟨rfl, rfl, rfl, rfl, fun hp q hq => by
    obtain ⟨p, hpd, rfl⟩ := List.mem_map.1 (show q ∈ d.places.map f from hq)
    exact hf p (hp p hpd)⟩

theorem Device.leavesFaults_modifyPlace (d : Device) (n : Nat) {f : Place → Place} (hf : ∀ p, p.covered → (f p).covered) :
    d.LeavesFaults (d.modifyPlace n f) :=
  ⟨rfl, rfl, rfl, rfl, fun hp q hq => by
    obtain ⟨i, hi⟩ := List.mem_iff_getElem?.1 (show q ∈ d.places.modify n f from hq)
    rw [List.getElem?_modify] at hi
    obtain ⟨p, hpi, rfl⟩ := Option.map_eq_some_iff.1 hi
    have hc := hp p (List.mem_of_getElem? hpi)
    split
    · exact hf p hc
    · exact hc⟩

theorem forall₂_mem_right {R : Place → Place → Prop} {ps qs : List Place} (h : List.Forall₂ R ps qs) {q : Place} (hq : q ∈ qs) :
    ∃ p ∈ ps, R p q := by
  induction h with
  | nil => cases hq
  | cons hr _ ih =>
    rcases List.mem_cons.1 hq with rfl | hq
    · exact ⟨_, by simp, hr⟩
    · obtain ⟨p, hp, hpq⟩ := ih hq; exact ⟨p, by simp [hp], hpq⟩

/-- The work of ST, SS, CU and the places leaves the faults. -/
theorem Device.Goes.leavesFaults {d e : Device} (h : d.Goes (fun p q => p.covered → q.covered) e) : d.LeavesFaults e :=
  ⟨(congrArg (·.lc.failureRun) h.still : e.still.lc.failureRun = d.still.lc.failureRun),
    (congrArg (·.vehicle) h.still : e.still.vehicle = d.still.vehicle), (congrArg (·.live) h.still : e.still.live = d.still.live),
    (congrArg (·.report) h.still : e.still.report = d.still.report), fun hp q hq => by
      obtain ⟨p, hpd, hpq⟩ := forall₂_mem_right h.places hq
      exact hpq (hp p hpd)⟩

theorem Device.leavesFaults_grant (d : Device) (choice : Choice) : d.LeavesFaults (d.grant choice) := by
  cases choice <;> exact leavesFaults_rest rfl rfl rfl rfl rfl

theorem Device.leavesFaults_launchRetry (d : Device) (x : Exchange) : d.LeavesFaults (d.launchRetry x) := by
  unfold Device.launchRetry; simp only; split <;> exact leavesFaults_rest rfl rfl rfl rfl rfl

theorem Device.leavesFaults_retry (d : Device) (x : Exchange) (k : FailKind) : d.LeavesFaults (d.retry x k) := by
  unfold Device.retry; simp only; split
  · exact leavesFaults_rest rfl rfl rfl rfl rfl
  · exact d.leavesFaults_launchRetry _

theorem Device.leavesFaults_completeStartup (d : Device) : d.LeavesFaults d.completeStartup :=
  ⟨by simp, by simp, by simp, by simp, fun hp q hq => by
    obtain ⟨p, hpd, hqp⟩ := mem_completeStartup hq
    exact Place.covered_of_eq (hp p hpd) (by rw [hqp]) (by rw [hqp])⟩

theorem Device.LeavesFaults.askProbe {d e : Device} (h : d.LeavesFaults e) (c : Code) : d.LeavesFaults (e.askProbe c) :=
  h.trans (goes_askProbe (sticky_work _) c).leavesFaults

theorem Device.leavesFaults_probeMark (d : Device) (t : Nat) : d.LeavesFaults (d.probeMark t) := by
  have hm : d.LeavesFaults { d with st := { d.st with nextProbe := some (t + 500) } } := leavesFaults_rest rfl rfl rfl rfl rfl
  unfold Device.probeMark; simp only
  split
  · exact hm
  · split
    · rename_i c _
      refine LeavesFaults.askProbe ?_ c
      exact leavesFaults_rest rfl rfl rfl rfl rfl
    · exact hm

theorem Device.leavesFaults_reProbeMark (d : Device) (c : Code) (t : Nat) : d.LeavesFaults (d.reProbeMark c t) := by
  unfold Device.reProbeMark; simp only; split <;> exact leavesFaults_rest rfl rfl rfl rfl rfl

/-! ## Place operations at other events -/

theorem Place.covered_tick (e : Env) (p : Place) (h : p.covered) : (p.tick e).covered := by
  unfold Place.tick Place.tickTimer; simp only
  repeat' split
  all_goals exact h

theorem Place.covered_remind (e0 : Env) (p0 : Place) (e : Env) (p : Place) (h : p.covered) : (p.remind e0 p0 e).covered :=
  covered_of_eq h (by simp) (by simp)

theorem Place.covered_evalVerdict (e : Env) (p : Place) (h : p.covered) : (p.evalVerdict e).covered :=
  covered_of_eq h (by simp) (by simp)

theorem Place.covered_loseFreshness (e : Env) (p : Place) (h : p.covered) : (p.loseFreshness e).covered := by
  have hs : (({ p with fresh := false } : Place).setFault .nodeSilent (decide (p.joinStamp + 401 ≤ e.now))).covered :=
    Place.setFault_covers _ _ _ h
  unfold Place.loseFreshness
  exact covered_of_eq hs (by simp) (by simp)

theorem Place.covered_writePolicy (e : Env) (v : Word) (p : Place) (h : p.covered) : (p.writePolicy e v).covered := by
  unfold Place.writePolicy; simp only
  repeat' split
  all_goals exact covered_of_eq h (by simp) (by simp)

theorem Place.covered_clearSticky (port : Port) (p : Place) (h : p.covered) : (p.clearSticky port).covered := by
  cases port
  · exact ⟨covers_self _, h.2⟩
  · exact ⟨h.1, covers_self _⟩

theorem covered_clearRun (port : Port) (start count n : Nat) (ps : List Place) (h : ∀ p ∈ ps, p.covered) :
    ∀ q ∈ clearRun port start count n ps, q.covered := by
  induction ps generalizing n with
  | nil => intro q hq; cases hq
  | cons p ps ih =>
    intro q hq
    rcases List.mem_cons.1 hq with rfl | hq
    · have hp := h p (by simp)
      split <;> exact hp
    · exact ih (n + 1) (fun r hr => h r (by simp [hr])) q hq

theorem Place.covered_startCal (e : Env) (forced : Bool) (p : Place) (h : p.covered) : (p.startCal e forced).covered :=
  covered_evalVerdict e _ h

theorem Place.covered_acceptedMap (e0 e : Env) (p : Place) (h : p.covered) : (p.acceptedMap e0 e).covered := by
  have hv := covered_evalVerdict e p h
  unfold Place.acceptedMap; split
  · exact h
  · exact hv

theorem Place.covered_freeze (e0 e : Env) (p : Place) (h : p.covered) : (p.freeze e0 e).covered :=
  covered_remind e0 p e _ ((sticky_work e).abortCal _ p.dropPending h)

theorem Place.covered_unfreeze (e0 e : Env) (p : Place) (h : p.covered) : (p.unfreeze e0 e).covered := by
  unfold Place.unfreeze; exact covered_of_eq h (by simp) (by simp)

/-! ## Every event, by what it makes of the faults -/

/-- An event leaves the faults, or ends an exchange, lets a SILENT station expire, lapses or supplies the vehicle state, or changes one
port's report without losing a live fault from its sticky set. -/
inductive Device.FaultEvent (d : Device) : Device → Prop
  | leaves {e : Device} : d.LeavesFaults e → FaultEvent d e
  | ends (m : Moment) (x : Exchange) (o : LinkOutcome) : FaultEvent d ((d.atMoment m).endExchange x o)
  | expires (c : Code) : FaultEvent d (d.toAbsent c).rebuild
  | lapses : FaultEvent d d.lapse
  | supplied (m : Moment) (ignition : Bool) (speed : Nat) : FaultEvent d ((d.atMoment m).supply ignition speed)
  | reports (m : Moment) (p : Port) (r : PortReport) :
      (r.stickyGlobal = (d.report.get p).stickyGlobal ∨ r.stickyGlobal = d.live) → FaultEvent d ((d.atMoment m).setReport p r)

theorem Device.faultEvent_attemptFailed (d : Device) (m : Moment) (x : Exchange) (k : FailKind) :
    d.FaultEvent ((d.atMoment m).attemptFailed x k) := by
  unfold Device.attemptFailed; split
  · exact .leaves ((d.leavesFaults_atMoment m).trans (leavesFaults_retry _ x k))
  · exact .ends m x _

theorem Device.faultEvent_takeChar (d : Device) (m : Moment) (x : Exchange) (ch : RxChar) :
    d.FaultEvent ((d.atMoment m).takeChar x ch) := by
  unfold Device.takeChar; simp only; split
  · exact .leaves ((d.leavesFaults_atMoment m).trans (leavesFaults_rest rfl rfl rfl rfl rfl))
  · exact .leaves ((d.leavesFaults_atMoment m).trans (leavesFaults_rest rfl rfl rfl rfl rfl))
  · exact d.faultEvent_attemptFailed m _ _
  · exact .ends m x _

theorem Device.leavesFaults_writeParam (d : Device) (id v : Nat) : d.LeavesFaults (d.writeParam id v) := by
  have hw : d.LeavesFaults { d with params := d.params.write id v } := leavesFaults_rest rfl rfl rfl rfl rfl
  unfold Device.writeParam; simp only; split
  · exact hw.trans (leavesFaults_mapPlaces _ fun p => Place.covered_remind _ _ _ p)
  · exact hw

theorem Device.Event.faultEvent {d e : Device} {c : Instr} (h : d.Event c e) : d.FaultEvent e := by
  cases h with
  | quiet => exact .leaves (leavesFaults_rest rfl rfl rfl rfl rfl)
  | grant m choice => exact .leaves ((d.leavesFaults_atMoment m).trans (leavesFaults_grant _ choice))
  | frameSent m x => exact .leaves ((d.leavesFaults_atMoment m).trans (leavesFaults_rest (by simp) rfl rfl rfl rfl))
  | char m ch x => exact d.faultEvent_takeChar m x ch
  | attemptFailed c m x k => exact d.faultEvent_attemptFailed m x k
  | heldRetry m x => exact .leaves ((d.leavesFaults_atMoment m).trans (leavesFaults_launchRetry _ x))
  | settle c => exact .leaves (leavesFaults_rest rfl rfl rfl rfl rfl)
  | selfRelax c t =>
    have hx : d.LeavesFaults (d.setExcitation c (.recovering (t + 22))) := leavesFaults_rest rfl rfl rfl rfl rfl
    split
    · exact .leaves (hx.trans (goes_scanFailed (sticky_work _) c).leavesFaults)
    · exact .leaves hx
  | unknownExpiry c t => exact .leaves (leavesFaults_rest rfl rfl rfl rfl rfl)
  | recoveryEnd c ends => exact .leaves (leavesFaults_rest rfl rfl rfl rfl rfl)
  | tick =>
    exact .leaves ((d.leavesFaults_mapPlaces (Place.covered_tick d.env)).trans (leavesFaults_rest rfl rfl rfl rfl rfl))
  | freshnessLoss n p => exact .leaves (d.leavesFaults_modifyPlace n (Place.covered_loseFreshness d.env))
  | nodeSilent n p => exact .leaves (d.leavesFaults_modifyPlace n fun p => Place.setFault_covers p _ _)
  | probeMark t => exact .leaves (d.leavesFaults_probeMark t)
  | reProbeMark c t => exact .leaves (d.leavesFaults_reProbeMark c t)
  | silentExpiry c t => exact .expires c
  | startupLimit => exact .leaves d.leavesFaults_completeStartup
  | lapse t => exact .lapses
  | lampTimer n p => exact .leaves (d.leavesFaults_modifyPlace n fun p => Place.covered_remind _ _ _ p)
  | chimeTimer n p => exact .leaves (d.leavesFaults_modifyPlace n fun p => Place.covered_remind _ _ _ p)
  | trimMark n p t => exact .leaves (d.leavesFaults_modifyPlace n fun _ h => h)
  | noEffect c m => exact .leaves (d.leavesFaults_atMoment m)
  | placeStatus p f => exact .leaves ((d.leavesFaults_atMoment _).trans (leavesFaults_modifyPlace _ _ fun _ h => h))
  | tableRead p f =>
    exact .leaves ((d.leavesFaults_atMoment f.moment).trans ⟨rfl, rfl, rfl, rfl, covered_clearRun p _ _ 0 _⟩)
  | globalFaultsRead p f => exact .reports _ p _ (.inl (by simp))
  | placeFaultsRead p f => exact .leaves ((d.leavesFaults_atMoment _).trans (leavesFaults_modifyPlace _ _ fun _ h => h))
  | globalFaultsClear p f => exact .reports _ p _ (.inr (by simp))
  | placeFaultsClear p f =>
    exact .leaves ((d.leavesFaults_atMoment _).trans (leavesFaults_modifyPlace _ _ fun q => Place.covered_clearSticky p q))
  | setParam p f row => exact .leaves ((d.leavesFaults_atMoment _).trans (leavesFaults_writeParam _ _ _))
  | setPolicy p f q => exact .leaves ((d.leavesFaults_atMoment _).trans (leavesFaults_modifyPlace _ _ (Place.covered_writePolicy _ _)))
  | setAttn p f => exact .reports _ p _ (.inl (by simp))
  | vehicleState f => exact .supplied _ _ _
  | calZero p f => exact .leaves ((d.leavesFaults_atMoment _).trans (leavesFaults_modifyPlace _ _ (Place.covered_startCal _ _)))
  | linkTest p f c =>
    exact .leaves (((d.leavesFaults_atMoment f.moment).trans
      (leavesFaults_rest (e := (d.atMoment f.moment).setStation c { d.station c with testPending := true }) rfl rfl rfl rfl rfl)).trans
      (goes_takeUpTest (sticky_work _) c).leavesFaults)
  | acceptMap f =>
    exact .leaves (((d.leavesFaults_atMoment f.moment).trans (leavesFaults_rest
      (e := { d.atMoment f.moment with
        accepted := (d.atMoment f.moment).places.map Place.id, acceptedGen := (d.atMoment f.moment).generation })
      rfl rfl rfl rfl rfl)).trans (leavesFaults_mapPlaces _ (Place.covered_acceptedMap _ _)))
  | freeze f =>
    exact .leaves (((d.leavesFaults_atMoment f.moment).trans (leavesFaults_rest (e := { d.atMoment f.moment with mode := .frozen })
      rfl rfl rfl rfl rfl)).trans ((leavesFaults_mapPlaces _ (Place.covered_freeze _ _)).trans (leavesFaults_rest rfl rfl rfl rfl rfl)))
  | unfreeze f =>
    exact .leaves (((d.leavesFaults_atMoment f.moment).trans (leavesFaults_rest (e := { d.atMoment f.moment with mode := .run })
      rfl rfl rfl rfl rfl)).trans (leavesFaults_mapPlaces _ (Place.covered_unfreeze _ _)))

end Sys2Proof.Machine
end

section
/-! PROOF. Every step keeps the fault laws (O51). -/

namespace Sys2Proof.Machine

/-! ## The sticky sets (R174) -/

/-- Covered places and covered global faults make the sticky law. -/
theorem Device.stickyLaw_intro {d : Device} (hp : ∀ p ∈ d.places, p.covered) (hg : d.globalCovered) : d.stickyLaw :=
  ⟨hp, hg⟩

theorem Device.LeavesFaults.sticky {d e : Device} (h : d.LeavesFaults e) (hd : d.stickyLaw) : e.stickyLaw := by
  obtain ⟨hp, hg⟩ := hd
  exact stickyLaw_intro (h.places hp) (by unfold Device.globalCovered; rw [h.live, h.report]; exact hg)

theorem Device.sticky_setGlobal {d : Device} (k : GlobalFault) (on : Bool) (h : d.stickyLaw) : (d.setGlobal k on).stickyLaw := by
  obtain ⟨hp, hg⟩ := h
  exact stickyLaw_intro (by rw [Device.setGlobal_places]; exact hp) (globalCovered_setGlobal k on hg)

theorem Device.covered_newPlace (d : Device) (id : Identity) : (d.newPlace id).covered :=
  Place.setFault_covers _ _ _ (Place.setFault_covers _ _ _ (Place.setFault_covers _ _ _ ⟨covers_self 0, covers_self 0⟩))

theorem Device.sticky_rebuild {d : Device} (h : d.stickyLaw) : d.rebuild.stickyLaw := by
  obtain ⟨hp, hg⟩ := h
  have hplaces : ∀ q ∈ d.rebuild.places, q.covered := by
    intro q hq
    obtain ⟨p, hpd, hqp⟩ := d.mem_rebuild hq
    refine Place.covered_of_eq (p := p) ?_ (by rw [hqp]) (by rw [hqp])
    rcases hpd with hpd | hpd
    · exact hp p hpd
    · rw [hpd]; exact d.covered_newPlace _
  refine stickyLaw_intro hplaces ?_
  unfold Device.rebuild
  refine globalCovered_setGlobal _ _ (globalCovered_setGlobal _ _ ?_)
  split <;> exact hg

theorem Device.sticky_settled {d : Device} (h : d.stickyLaw) : d.settled.stickyLaw := by
  unfold Device.settled; split
  · exact (leavesFaults_completeStartup _).sticky (sticky_rebuild h)
  · exact sticky_rebuild h

theorem Device.sticky_heard {d : Device} (x : Exchange) (o : LinkOutcome) (h : d.stickyLaw) : (d.heard x o).stickyLaw := by
  have hclosed : (d.closeExchange x.station o).stickyLaw := by
    cases o with
    | answered a n => exact sticky_setGlobal (d := { d with lc := { d.lc with exchange := none, failureRun := [] } }) _ _ h
    | failed k =>
      unfold Device.closeExchange; simp only; split
      · exact sticky_setGlobal (d := { d with
          lc := { d.lc with exchange := none, failureRun := pushFailure d.lc.failureRun x.station } }) _ _ h
      · exact h
  exact hclosed

/-- What the requesting block makes of an outcome leaves the faults of the blocks that are not its own. -/
theorem Device.leavesFaults_handed (d : Device) (x : Exchange) (o : LinkOutcome) : d.LeavesFaults (d.handed x o) := by
  have hd : d.LeavesFaults (d.deliver x o) := (goes_deliver (sticky_work _) x o).leavesFaults
  unfold Device.handed; split
  · exact hd.trans (goes_lateExpiry (sticky_work _) x.station).leavesFaults
  · exact hd

theorem Device.sticky_endExchange {d : Device} (x : Exchange) (o : LinkOutcome) (h : d.stickyLaw) : (d.endExchange x o).stickyLaw := by
  rw [Device.endExchange_eq]
  exact sticky_settled ((leavesFaults_handed _ x o).sticky (sticky_heard x o h))

theorem Device.sticky_setReport {d : Device} (p : Port) (r : PortReport) (h : d.stickyLaw)
    (hr : r.stickyGlobal = (d.report.get p).stickyGlobal ∨ r.stickyGlobal = d.live) : (d.setReport p r).stickyLaw := by
  obtain ⟨hp, ha, hb⟩ := h
  have hc : covers r.stickyGlobal d.live := by
    rcases hr with hr | hr
    · rw [hr]; cases p
      · exact ha
      · exact hb
    · rw [hr]; exact covers_self _
  cases p
  · exact stickyLaw_intro hp ⟨hc, hb⟩
  · exact stickyLaw_intro hp ⟨ha, hc⟩

theorem Device.FaultEvent.sticky {d e : Device} (h : d.FaultEvent e) (hd : d.stickyLaw) : e.stickyLaw := by
  have hm : ∀ m, (d.atMoment m).stickyLaw := fun m => (d.leavesFaults_atMoment m).sticky hd
  cases h with
  | leaves hl => exact hl.sticky hd
  | ends m x o => exact sticky_endExchange x o (hm m)
  | expires c => exact sticky_rebuild hd
  | lapses =>
    have hv : Device.stickyLaw { d with vehicle := { d.vehicle with speed := none, lapseStart := none, speedZero := none } } := hd
    exact sticky_setGlobal _ _ ((leavesFaults_mapPlaces _ fun p => Place.covered_remind _ _ _ p).sticky hv)
  | supplied m ignition speed =>
    have hv : Device.stickyLaw { d.atMoment m with
        vehicle := (d.atMoment m).vehicle.supplied ignition speed (d.atMoment m).stamp } := hm m
    refine sticky_setGlobal _ _ ((leavesFaults_mapPlaces _ fun p hp => Place.covered_remind _ _ _ _ ?_).sticky hv)
    unfold Place.tripFlag; repeat' split
    all_goals exact hp
  | reports m p r hr => exact sticky_setReport p r (hm m) (by simpa using hr)

/-! ## The failure run and the lapse (R12, R137, R139, R140) -/

/-- The two laws together: they read the failure run, the vehicle record and two global faults alone. -/
abbrev Device.runAndLapseLaw (d : Device) : Prop := d.failureRunLaw ∧ d.vehicleLaw

theorem Device.runAndLapse_of_eq {d e : Device} (h : d.runAndLapseLaw) (h1 : e.lc.failureRun = d.lc.failureRun)
    (h2 : e.vehicle = d.vehicle) (h3 : e.live.getLsbD GlobalFault.linkFault.bit = d.live.getLsbD GlobalFault.linkFault.bit)
    (h4 : e.live.getLsbD GlobalFault.vehicleLapsed.bit = d.live.getLsbD GlobalFault.vehicleLapsed.bit) : e.runAndLapseLaw := by
  unfold Device.runAndLapseLaw Device.failureRunLaw Device.vehicleLaw
  rw [h1, h2, h3, h4]
  exact h

theorem Device.LeavesFaults.runAndLapse {d e : Device} (h : d.LeavesFaults e) (hd : d.runAndLapseLaw) : e.runAndLapseLaw :=
  runAndLapse_of_eq hd h.run h.vehicle (by rw [h.live]) (by rw [h.live])

theorem pushFailure_length (run : List Code) (c : Code) : (pushFailure run c).length = min 3 (run.length + 1) := by
  simp only [pushFailure, List.length_drop, List.length_append, List.length_singleton]; omega

theorem threeDifferent_length {run : List Code} (h : threeDifferent run = true) : run.length = 3 := by
  unfold threeDifferent at h
  split at h
  · rfl
  · cases h

/-- The end of an exchange at LC: what becomes of its record, the failure run and LINK_FAULT (R7, R8, R12). -/
theorem Device.closeExchange_lc (d : Device) (c : Code) (o : LinkOutcome) :
    (d.closeExchange c o).lc = { d.lc with
      exchange := none
      failureRun := match o with
        | .answered _ _ => []
        | .failed _ => pushFailure d.lc.failureRun c } := by
  cases o with
  | answered a n => simp [Device.closeExchange]
  | failed k => unfold Device.closeExchange; simp only; split <;> simp

theorem Device.closeExchange_linkFault (d : Device) (c : Code) (o : LinkOutcome) :
    (d.closeExchange c o).live.getLsbD GlobalFault.linkFault.bit =
      match o with
      | .answered _ _ => false
      | .failed _ => threeDifferent (pushFailure d.lc.failureRun c) || d.live.getLsbD GlobalFault.linkFault.bit := by
  cases o with
  | answered a n => simp only [Device.closeExchange, Device.live_setGlobal, if_true]
  | failed k =>
    unfold Device.closeExchange; simp only; split
    · rename_i ht; rw [Device.live_setGlobal, if_pos rfl, ht, Bool.true_or]
    · rename_i ht; rw [Bool.eq_false_iff.2 ht, Bool.false_or]

theorem Device.closeExchange_vehicleLapsed (d : Device) (c : Code) (o : LinkOutcome) :
    (d.closeExchange c o).live.getLsbD GlobalFault.vehicleLapsed.bit = d.live.getLsbD GlobalFault.vehicleLapsed.bit := by
  cases o with
  | answered a n => simp only [Device.closeExchange, Device.live_setGlobal, reduceCtorEq, if_false]
  | failed k =>
    unfold Device.closeExchange; simp only; split
    · simp only [Device.live_setGlobal, reduceCtorEq, if_false]
    · rfl

@[simp] theorem Device.closeExchange_vehicle (d : Device) (c : Code) (o : LinkOutcome) : (d.closeExchange c o).vehicle = d.vehicle := by
  cases o with
  | answered a n => simp [Device.closeExchange]
  | failed k => unfold Device.closeExchange; simp only; split <;> simp

theorem Device.runAndLapse_closeExchange {d : Device} (c : Code) (o : LinkOutcome) (h : d.runAndLapseLaw) :
    (d.closeExchange c o).runAndLapseLaw := by
  obtain ⟨⟨hlen, hthree, hfault⟩, hv⟩ := h
  constructor
  · unfold Device.failureRunLaw
    rw [Device.closeExchange_lc, Device.closeExchange_linkFault]
    cases o with
    | answered a n => simp [threeDifferent]
    | failed k =>
      refine ⟨?_, fun ht => by simp only [ht, Bool.true_or], fun hf => ?_⟩
      · exact pushFailure_length .. ▸ Nat.min_le_left ..
      · rcases Bool.or_eq_true_iff.1 hf with ht | hl
        · exact threeDifferent_length ht
        · have := hfault hl
          show (pushFailure d.lc.failureRun c).length = 3
          rw [pushFailure_length, this]; rfl
  · unfold Device.vehicleLaw
    rw [Device.closeExchange_vehicle, Device.closeExchange_vehicleLapsed]
    exact hv

theorem Device.runAndLapse_settled {d : Device} (h : d.runAndLapseLaw) : d.settled.runAndLapseLaw :=
  runAndLapse_of_eq h (by simp) (by simp) (by simp) (by simp)

theorem Device.runAndLapse_endExchange {d : Device} (x : Exchange) (o : LinkOutcome) (h : d.runAndLapseLaw) :
    (d.endExchange x o).runAndLapseLaw := by
  have hheard : (d.heard x o).runAndLapseLaw := runAndLapse_closeExchange x.station o h
  rw [Device.endExchange_eq]
  exact runAndLapse_settled ((leavesFaults_handed _ x o).runAndLapse hheard)

theorem Device.runAndLapse_lapse {d : Device} (h : d.runAndLapseLaw) : d.lapse.runAndLapseLaw := by
  obtain ⟨hrun, -⟩ := h
  constructor
  · simp only [Device.lapse, Device.failureRunLaw, Device.setGlobal_lc, Device.live_setGlobal, reduceCtorEq, if_false]
    exact hrun
  · simp [Device.lapse, Device.vehicleLaw, Device.live_setGlobal, Vehicle.lapsed]

theorem Device.runAndLapse_supply {d : Device} (ignition : Bool) (speed : Nat) (h : d.runAndLapseLaw) :
    (d.supply ignition speed).runAndLapseLaw := by
  obtain ⟨hrun, -⟩ := h
  constructor
  · simp only [Device.supply, Device.failureRunLaw, Device.setGlobal_lc, Device.live_setGlobal, reduceCtorEq, if_false]
    exact hrun
  · simp only [Device.supply, Device.vehicleLaw, Device.live_setGlobal, if_true, Device.setGlobal_vehicle, Device.mapPlaces_vehicle,
      Vehicle.supplied, Vehicle.lapsed]
    refine ⟨by simp, by simp, fun hz => ?_⟩
    by_cases h0 : speed = 0
    · rw [h0]
    · simp [h0] at hz

theorem Device.FaultEvent.runAndLapse {d e : Device} (h : d.FaultEvent e) (hd : d.runAndLapseLaw) : e.runAndLapseLaw := by
  have hm : ∀ m, (d.atMoment m).runAndLapseLaw := fun m => (d.leavesFaults_atMoment m).runAndLapse hd
  cases h with
  | leaves hl => exact hl.runAndLapse hd
  | ends m x o => exact runAndLapse_endExchange x o (hm m)
  | expires c =>
    exact runAndLapse_of_eq hd (by simp [Device.toAbsent]) (by simp [Device.toAbsent]) (by rw [Device.rebuild_live]; rfl)
      (by rw [Device.rebuild_live]; rfl)
  | lapses => exact runAndLapse_lapse hd
  | supplied m ignition speed => exact runAndLapse_supply ignition speed (hm m)
  | reports m p r => exact hm m

/-! ## The statement -/

/-- Settles O51: each law holds at reset, is kept by the end of an event, and by every event (`Device.Event.faultEvent`). -/
theorem everyStepKeepsTheFaultLaws : Obligations.EveryStepKeepsTheFaultLaws := by
  have hreset : Device.reset.stickyLaw ∧ Device.reset.runAndLapseLaw := by decide
  constructor
  · intro s t hs h
    exact Device.law_kept_by_step (P := Device.stickyLaw) hreset.1 (fun _ h => h) (fun _ _ _ hd he => he.faultEvent.sticky hd) hs h
  · intro s t hrun hlapse h
    exact Device.law_kept_by_step (P := Device.runAndLapseLaw) hreset.2 (fun _ h => h)
      (fun _ _ _ hd he => he.faultEvent.runAndLapse hd) ⟨hrun, hlapse⟩ h

end Sys2Proof.Machine
end

section
/-! PROOF. The rows of the seat link: the choice of the arbiter, the command frame, the answer characters, the retries (O2, O4, O6, O7,
O10, O11, O12, O48). -/

namespace Sys2Proof.Machine

/-! ## Reset (R39, R185) -/

theorem Device.reset_station (c : Code) :
    Device.reset.station c = if c = 0 then { Station.absent with state := .probing } else Station.absent := by
  revert c; decide

theorem Device.reset_record (c : Code) : Device.reset.record c = ScanRecord.reset := by
  revert c; decide

/-- Settles O2: what RESET leaves is `State.reset` with the commands that wait. -/
theorem resetPutsEveryBlockInItsResetState : Obligations.ResetPutsEveryBlockInItsResetState := by
  intro s
  refine ⟨{ State.reset with pending := s.pending }, rfl, rfl, rfl, rfl, rfl, rfl, rfl, ?probing, ?absent, ?records, rfl, ?scans, rfl, rfl,
    rfl, rfl, rfl, rfl, rfl, rfl, rfl, rfl, rfl, rfl, rfl, rfl, rfl, ?ports⟩
  case probing => rfl
  case absent =>
    intro c hc
    show (Device.reset.station c).state = .absent
    rw [Device.reset_station, if_neg hc]; rfl
  case records =>
    intro c
    show (Device.reset.station c).failures = 0 ∧ (Device.reset.station c).retained = false ∧ (Device.reset.station c).serial = none ∧
      (Device.reset.station c).count = none ∧ (Device.reset.station c).silentSince = none
    rw [Device.reset_station]
    split <;> exact ⟨rfl, rfl, rfl, rfl, rfl⟩
  case scans =>
    intro c
    show (Device.reset.record c).excitation = .relaxed ∧ (Device.reset.record c).due = none ∧ (Device.reset.record c).scan = none
    rw [Device.reset_record]; exact ⟨rfl, rfl, rfl⟩
  case ports =>
    intro p
    cases p <;> exact ⟨rfl, rfl, rfl, rfl, rfl, rfl, rfl, rfl, rfl, rfl, fun _ => rfl⟩

/-- Settles O48: the laws are decidable on the reset state. -/
theorem theLawsHoldAtReset : Obligations.TheLawsHoldAtReset := by
  have hports : State.reset.transferLaw := by decide
  have hpublished : State.reset.dev.publishedLaw := by decide
  have hfaults : State.reset.dev.stickyLaw ∧ State.reset.dev.runAndLapseLaw := by decide
  have hlist : State.reset.dev.listLaw := by decide
  have hmap : State.reset.dev.mapLaw := by decide
  have hplaces : ∀ p ∈ State.reset.dev.places, p.loadLaw ∧ p.trimLaw := fun _ hp => nomatch hp
  have hcal : State.reset.dev.calLaw := by decide
  have hverdict : State.reset.dev.verdictLaw := fun _ _ hp => nomatch hp
  have hreminder : State.reset.dev.reminderLaw := fun _ hp => nomatch hp
  have hparams : State.reset.dev.params.law := by decide
  have hbudget : State.reset.dev.historyLaw ∧ State.reset.dev.waitingLaw := by decide
  exact ⟨hports, hpublished, hfaults.1, hfaults.2.1, hfaults.2.2, hlist, hmap, hplaces, hcal, hverdict, hreminder,
    hparams, hbudget⟩

/-! ## The arbiter's choice (R7, R69) -/

/-- A choice of a waiting request is the first eligible one. -/
theorem Device.choose_waiting {d : Device} {r : LinkRequest} (h : d.choose = some (.waiting r)) :
    d.ss.waiting.find? d.requestEligible = some r := by
  unfold Device.choose at h
  split at h
  · obtain ⟨cmd, _, hc⟩ := Option.map_eq_some_iff.1 h; cases hc
  · split at h
    · rename_i q hq; cases h; exact hq
    · obtain ⟨c, _, hc⟩ := Option.map_eq_some_iff.1 h; cases hc

/-- Taking out the first element that meets a test is taking out that element's first copy. -/
theorem eraseP_eq_erase_of_find? {p : LinkRequest → Bool} {l : List LinkRequest} {r : LinkRequest} (h : l.find? p = some r) :
    l.eraseP p = l.erase r := by
  have hr : p r = true := List.find?_some h
  induction l with
  | nil => cases h
  | cons a l ih =>
    by_cases ha : p a = true
    · rw [List.find?_cons_of_pos ha] at h
      cases h
      rw [List.eraseP_cons_of_pos ha, List.erase_cons_head]
    · rw [List.find?_cons_of_neg ha] at h
      have hne : a ≠ r := fun e => ha (e ▸ hr)
      rw [List.eraseP_cons_of_neg ha, List.erase_cons_tail (by simpa using hne), ih h]

/-- What the choice carried out leaves: places, stations and the failure run stay, and an exchange has started. -/
theorem Device.grant_frame (d : Device) (choice : Choice) :
    (d.grant choice).places = d.places ∧ (d.grant choice).st = d.st ∧ (d.grant choice).lc.failureRun = d.lc.failureRun := by
  cases choice <;> exact ⟨rfl, rfl, rfl⟩

/-- The exchange record that a launch makes is that of the request (R7). -/
theorem Device.launch_exchange (d : Device) (c : Code) (cmd : LinkCommand) (b : Block) :
    ∃ x, (d.launch c cmd b).lc.exchange = some x ∧ x.startedFor c cmd b :=
  ⟨_, rfl, rfl, rfl, rfl, rfl, rfl, rfl⟩

theorem Device.startScan_record (d : Device) (c k : Code) :
    (d.startScan c).record k = if k = c then { d.record c with
      due := some (d.stamp + d.ss.period), scan := some { start := d.stamp, order := d.ss.nextOrder, step := .exciting } }
    else d.record k :=
  d.setRecord_record c k _

/-- Settles O4: the three kinds of choice, each carried out by `Device.grant`; the eligible request found is the first copy of itself
(`eraseP_eq_erase_of_find?`). -/
theorem arbiterChoiceStartsTheChosenExchange : Obligations.ArbiterChoiceStartsTheChosenExchange := by
  intro m s choice hfree hchoice
  have hexec : exec (.arbiterChoice m) s = .next { s with dev := ((s.dev.atMoment m).grant choice).finish } := by
    simp only [exec, execArbiterChoice, hfree, if_true, hchoice, State.event]
  obtain ⟨hplaces, hst, hrun⟩ := (s.dev.atMoment m).grant_frame choice
  rw [Device.atMoment_places] at hplaces
  rw [Device.atMoment_st] at hst
  rw [Device.atMoment_lc] at hrun
  cases choice with
  | step c cmd =>
    obtain ⟨x, hx, hstart⟩ := (s.dev.atMoment m).launch_exchange c cmd .ss
    exact ⟨_, x, hexec, hx, rfl, hplaces, hst, hrun, hstart, by simp [Device.grant], by simp [Device.grant], by simp [Device.grant]⟩
  | waiting r =>
    have herase := eraseP_eq_erase_of_find? (Device.choose_waiting hchoice)
    rw [Device.atMoment_ss] at herase
    obtain ⟨x, hx, hstart⟩ := Device.launch_exchange _ r.station r.cmd r.block
    exact ⟨_, x, hexec, hx, rfl, hplaces, hst, hrun, hstart, by simp [Device.grant, herase], by simp [Device.grant],
      by simp [Device.grant]⟩
  | scan c =>
    obtain ⟨x, hx, hstart⟩ := Device.launch_exchange _ c .excite .ss
    refine ⟨_, x, hexec, hx, rfl, hplaces, hst, hrun, hstart, ?_, ?_, ?_, ?_, fun k hk => ?_, ?_⟩
    · simp [Device.grant, Device.startScan]
    · simp [Device.grant, Device.startScan_record]
    · simp [Device.grant, Device.startScan_record]
    · simp [Device.grant, Device.startScan_record]
    · simp [Device.grant, Device.startScan_record, hk]
    · show pushStamp (s.dev.atMoment m).ss.history (s.dev.atMoment m).stamp = _
      rw [Device.atMoment_ss]

/-! ## The quiet and the command frame (R1, R6, R7) -/

/-- Settles O6: by whether the quiet has passed, and by the phase of the attempt. -/
theorem theLinkWaitsForTheQuietAndForTheFrameEnd : Obligations.TheLinkWaitsForTheQuietAndForTheFrameEnd := by
  constructor
  · intro s hq
    refine ⟨fun m => ?_, ?_⟩
    · simp [exec, execArbiterChoice, Device.linkFree, hq]
    · simp only [exec, execLinkQuietPassed, hq, Bool.false_eq_true, if_false, State.event]
  · intro m s x hx
    have hdriving : s.dev.lc.driving = (x.phase == some .sending) := by simp [LinkController.driving, hx]
    refine ⟨fun hp => ⟨?_, by rw [hdriving, hp]; rfl⟩, fun hp => ⟨?_, by rw [hdriving]; simpa using hp⟩⟩
    · simp only [exec, execCommandFrameSent, hx, if_pos hp, State.event]
    · simp only [exec, execCommandFrameSent, hx, if_neg hp]

/-! ## Answer characters (R4, R6, R7) -/

/-- A character of an answer in progress is taken as the checks say. -/
theorem exec_char_taken {m : Moment} {ch : RxChar} {s : State} {x : Exchange} (hx : s.dev.lc.exchange = some x)
    (hp : x.phase = some .awaiting ∨ x.phase = some .receiving) :
    exec (.linkCharacterReceived m ch) s = .next { s with dev := ((s.dev.atMoment m).takeChar x ch).finish } := by
  simp only [exec, execLinkCharacterReceived, hx, if_pos hp, State.event]

/-- Settles O7: by the phase, and then by what the checks make of the character. -/
theorem answerCharactersAreTakenOrDiscarded : Obligations.AnswerCharactersAreTakenOrDiscarded := by
  intro m ch s
  refine ⟨fun hx => ?_, fun x hx => ⟨fun hp => ?_, fun hp => ⟨fun hc => ?_, fun hc => ?_⟩⟩⟩
  · simp only [exec, execLinkCharacterReceived, hx]
  · have hn : ¬ (x.phase = some .awaiting ∨ x.phase = some .receiving) := by
      rcases hp with hp | hp | hp <;> simp [hp]
    simp only [exec, execLinkCharacterReceived, hx, if_neg hn]
  · rw [exec_char_taken hx hp]
    simp only [Device.takeChar, Device.atMoment_station, hc, Device.atMoment_lc]
  · rw [exec_char_taken hx hp]
    simp only [Device.takeChar, Device.atMoment_station, hc, Device.atMoment_lc]

/-! ## The retries (R8, R9) -/

/-- A retry goes on the line with its send stamp entered exactly when it is an EXCITE. -/
theorem Device.launchRetry_eq (d : Device) (x : Exchange) :
    d.launchRetry x = { d with
      lc := { d.lc with exchange := some { x with phase := some .sending, frameEnd := d.stamp, rx := [] } }
      ss := { d.ss with history := if x.cmd = .excite then pushStamp d.ss.history d.stamp else d.ss.history } } := by
  unfold Device.launchRetry; simp only
  split <;> rfl

/-- A failed first attempt is retried at the event of its failure. -/
theorem exec_firstFailure {c : Instr} {m : Moment} {k : FailKind} {s : State} {x : Exchange} (hx : s.dev.lc.exchange = some x)
    (hf : s.dev.failureOf x c = some (m, k)) (hfirst : x.firstFailure = none) :
    ∃ rx, exec c s = .next { s with dev := ((s.dev.atMoment m).retry { x with rx := rx } k).finish } := by
  obtain ⟨rx, he⟩ := exec_of_failureOf hx hf
  exact ⟨rx, by rw [he, Device.attemptFailed, if_pos hfirst]⟩

/-- Settles O10: the retry that `exec_firstFailure` gives goes on the line at once. -/
theorem aFailedFirstAttemptIsRetriedAtOnce : Obligations.AFailedFirstAttemptIsRetriedAtOnce := by
  intro c m k s x hx hf hfirst
  obtain ⟨rx, he⟩ := exec_firstFailure hx hf hfirst
  refine ⟨fun hcmd => ?_, fun hcmd hb => ?_⟩
  · rw [he, Device.retry]
    simp only [hcmd, false_and, if_false, Device.launchRetry_eq, Device.atMoment_lc]
  · rw [he, Device.retry]
    simp only [hcmd, Device.atMoment_budgetAllows, hb, Bool.true_eq_false, and_false, if_false, if_true, Device.launchRetry_eq,
      Device.atMoment_lc, Device.atMoment_ss]

/-- Settles O12: the retry of the failed attempt is held by `Device.retry`, and started by `Device.launchRetry`. -/
theorem anExciteRetryWaitsForTheBudget : Obligations.AnExciteRetryWaitsForTheBudget := by
  intro s x hx hcmd
  refine ⟨fun c m k hf hfirst hb => ?_, fun m hp hb => ?_, fun m hp hb => ?_⟩
  · obtain ⟨rx, he⟩ := exec_firstFailure hx hf hfirst
    rw [he, Device.retry]
    simp only [hcmd, Device.atMoment_budgetAllows, hb, and_self, if_true, Device.atMoment_lc]
  · simp [exec, execExciteRetryStart, hx, hb]
  · simp only [exec, execExciteRetryStart, hx, hp, hb, and_self, if_true, State.event, Device.launchRetry_eq, hcmd, Device.atMoment_lc,
      Device.atMoment_ss]

/-- A failed second attempt ends its exchange. -/
theorem exec_secondFailure {c : Instr} {m : Moment} {k : FailKind} {s : State} {x : Exchange} (hx : s.dev.lc.exchange = some x)
    (hf : s.dev.failureOf x c = some (m, k)) (hsecond : x.firstFailure ≠ none) :
    ∃ rx, exec c s = .next { s with dev := ((s.dev.atMoment m).endExchange { x with rx := rx } (.failed k)).finish } := by
  obtain ⟨rx, he⟩ := exec_of_failureOf hx hf
  exact ⟨rx, by rw [he, Device.attemptFailed, if_neg hsecond]⟩

/-- What LC keeps after the end of an exchange is what it kept at its close: the requesting block, the place list and start-up completion
do not touch it. -/
theorem Device.endExchange_lc (d : Device) (x : Exchange) (o : LinkOutcome) :
    (d.endExchange x o).lc = (d.closeExchange x.station o).lc := by
  have hd : ((d.heard x o).deliver x o).lc = (d.heard x o).lc :=
    (congrArg Device.lc (Device.goes_deliver (sticky_work _) x o).still :)
  rw [Device.endExchange_eq, Device.settled_lc]
  show _ = (d.heard x o).lc
  rw [← hd]
  unfold Device.handed; split
  · exact (congrArg Device.lc (Device.goes_lateExpiry (sticky_work _) x.station).still :)
  · rfl

theorem Device.endExchange_linkFault (d : Device) (x : Exchange) (o : LinkOutcome) :
    (d.endExchange x o).live.getLsbD GlobalFault.linkFault.bit =
      (d.closeExchange x.station o).live.getLsbD GlobalFault.linkFault.bit := by
  rw [Device.endExchange_eq, Device.settled_linkFault, (Device.leavesFaults_handed _ x o).live]
  rfl

/-- Settles O11: the close of the exchange at LC, which nothing after it in the event touches. -/
theorem aFailedSecondAttemptEntersTheFailureRun : Obligations.AFailedSecondAttemptEntersTheFailureRun := by
  intro c m k s x hx hf hsecond
  obtain ⟨rx, he⟩ := exec_secondFailure hx hf hsecond
  refine ⟨_, he, rfl, ?_, ?_, ?_⟩
  · simp only [Device.finish_lc, Device.endExchange_lc, Device.closeExchange_lc]
  · simp only [Device.finish_lc, Device.endExchange_lc, Device.closeExchange_lc, Device.atMoment_lc, pushFailure]
  · simp only [Device.finish_lc, Device.finish_live, Device.endExchange_lc, Device.endExchange_linkFault, Device.closeExchange_lc,
      Device.closeExchange_linkFault, Device.atMoment_lc, Device.atMoment_live]

end Sys2Proof.Machine
end

section
/-! PROOF. The checks of an answer (R4): what each character does, and which whole answers are accepted (O9). -/

namespace Sys2Proof.Machine

/-! ## The checks, character by character -/

theorem resultFits_iff (cmd : LinkCommand) (r : LinkResult) : resultFits cmd r = true ↔ (r = .notExcited → cmd = .sample) := by
  cases r <;> simp [resultFits]

theorem statusAccepted_of_result {cmd : LinkCommand} {status : Byte} {r : LinkResult} (h : resultOf status = some r) :
    statusAccepted cmd status = true ↔ (r = .notExcited → cmd = .sample) := by
  rw [statusAccepted, h]; exact resultFits_iff cmd r

/-- The length that fits a result and a command (R4). -/
theorem lengthAccepted_iff {cmd : LinkCommand} {count : Option Nat} {status len : Byte} {r : LinkResult} (h : resultOf status = some r) :
    lengthAccepted cmd count status len = true ↔
      len.toNat ≤ 80 ∧ len.toNat = (if r = .ack then cmd.answerLength count else 0) := by
  unfold lengthAccepted
  rw [h]
  cases r <;> simp

theorem modeAgrees_iff (status mode : Byte) :
    modeAgrees status mode = true ↔ mode.getLsbD 0 = status.getLsbD 5 ∧ mode.getLsbD 1 = status.getLsbD 6 := by
  simp only [modeAgrees, excitedFlag, patternFlag, Bool.and_eq_true, beq_iff_eq]

/-- The check of a character after the length byte: at the check byte the sum, before it mode agreement. -/
theorem checkAnswer_later (cmd : LinkCommand) (count : Option Nat) (status len : Byte) {later : List Byte} (w : Bool) (h : later ≠ []) :
    checkAnswer cmd count (status :: len :: later) w =
      if later.length = len.toNat + 1 then
        if w && byteSum (status :: len :: later) == 0 then .accepted (answerOf (status :: len :: later)) else .bad
      else if w && payloadAccepted cmd (status :: len :: later) then .more else .drain := by
  cases later with
  | nil => exact absurd rfl h
  | cons b bs => simp only [checkAnswer, List.length_cons, Nat.add_right_cancel_iff]

/-- Mode agreement is asked for at the seventh payload byte of an IDENTIFY answer alone. -/
theorem payloadAccepted_iff (cmd : LinkCommand) (status len b : Byte) (done : List Byte) :
    payloadAccepted cmd (status :: len :: (done ++ [b])) = true ↔
      (cmd = .identify → done.length = 6 → modeAgrees status b = true) := by
  have hlen : (status :: len :: (done ++ [b])).length = 9 ↔ done.length = 6 := by
    simp only [List.length_cons, List.length_append, List.length_nil]; omega
  have hbyte : done.length = 6 → (status :: len :: (done ++ [b])).getD 8 0 = b := by
    intro h; simp [List.getD_eq_getElem?_getD, h]
  unfold payloadAccepted
  simp only [hlen]
  by_cases hc : cmd = .identify ∧ done.length = 6
  · rw [if_pos hc, hbyte hc.2]
    simp [hc]
  · rw [if_neg hc]
    simp only [true_iff]
    exact fun h1 h2 => absurd ⟨h1, h2⟩ hc

/-! ## Whole answers -/

theorem receive_more {cmd : LinkCommand} {count : Option Nat} {taken rest : List Byte} {b : Byte}
    (h : checkAnswer cmd count (taken ++ [b]) true = .more) :
    receive cmd count taken (b :: rest) = receive cmd count (taken ++ [b]) rest := by
  rw [receive, h]

theorem receive_ends {cmd : LinkCommand} {count : Option Nat} {taken rest : List Byte} {b : Byte} {o : RxResult}
    (h : checkAnswer cmd count (taken ++ [b]) true = o) (ho : o ≠ .more) : receive cmd count taken (b :: rest) = some o := by
  rw [receive, h]
  cases o with
  | more => exact absurd rfl ho
  | _ => rfl

/-- A status byte that fits the command, and after it a length byte that fits both, are taken. -/
theorem receive_head {cmd : LinkCommand} {count : Option Nat} {status len : Byte} {rest : List Byte}
    (hs : statusAccepted cmd status = true) (hl : lengthAccepted cmd count status len = true) :
    receive cmd count [] (status :: len :: rest) = receive cmd count [status, len] rest := by
  rw [receive_more (by simp [checkAnswer, hs]), receive_more (by simp [checkAnswer, hl])]
  rfl

/-- Payload bytes within the length are taken, given mode agreement at the seventh of an IDENTIFY answer. -/
theorem receive_payload (cmd : LinkCommand) (count : Option Nat) (status len : Byte) (done bytes rest : List Byte)
    (hlen : (done ++ bytes).length ≤ len.toNat)
    (hmode : cmd = .identify → ∀ mode : Byte, (done ++ bytes)[6]? = some mode → modeAgrees status mode = true) :
    receive cmd count (status :: len :: done) (bytes ++ rest) = receive cmd count (status :: len :: (done ++ bytes)) rest := by
  induction bytes generalizing done with
  | nil => simp
  | cons b bytes ih =>
    have htaken : checkAnswer cmd count (status :: len :: (done ++ [b])) true = .more := by
      have hshort : ¬ (done ++ [b]).length = len.toNat + 1 := by
        simp only [List.length_append, List.length_cons, List.length_nil] at hlen ⊢; omega
      have hagrees : payloadAccepted cmd (status :: len :: (done ++ [b])) = true :=
        (payloadAccepted_iff ..).2 fun hc h6 => hmode hc b (by simp [h6])
      rw [checkAnswer_later _ _ _ _ _ (by simp), if_neg hshort, hagrees]; rfl
    rw [List.cons_append, receive_more (by exact htaken)]
    have := ih (done ++ [b]) (by simpa using hlen) (by simpa using hmode)
    simpa using this

/-- What a complete run of characters spells (R4). -/
theorem answerOf_frame {status len check : Byte} {payload : List Byte} {r : LinkResult} (h : resultOf status = some r) :
    answerOf (status :: len :: (payload ++ [check])) =
      { result := r, boot := status.getLsbD 4, excited := status.getLsbD 5, pattern := status.getLsbD 6, payload := payload } := by
  simp [answerOf, h, bootFlag, excitedFlag, patternFlag]

/-- A frame that fits is accepted or refused at its check byte. -/
theorem receive_fitting {cmd : LinkCommand} {count : Option Nat} {status check : Byte} {payload : List Byte} {r : LinkResult}
    (hr : resultOf status = some r) (hfits : r = .notExcited → cmd = .sample) (h80 : payload.length ≤ 80)
    (hlen : payload.length = (if r = .ack then cmd.answerLength count else 0))
    (hmode : cmd = .identify → ∀ mode : Byte, payload[6]? = some mode →
      mode.getLsbD 0 = status.getLsbD 5 ∧ mode.getLsbD 1 = status.getLsbD 6) :
    receive cmd count [] (status :: BitVec.ofNat 8 payload.length :: (payload ++ [check])) =
      some (if byteSum (status :: BitVec.ofNat 8 payload.length :: (payload ++ [check])) = 0 then
        .accepted { result := r, boot := status.getLsbD 4, excited := status.getLsbD 5, pattern := status.getLsbD 6, payload := payload }
      else .bad) := by
  have hnat : (BitVec.ofNat 8 payload.length).toNat = payload.length := by
    rw [BitVec.toNat_ofNat, Nat.mod_eq_of_lt (by omega)]
  rw [receive_head ((statusAccepted_of_result hr).2 hfits) ((lengthAccepted_iff hr).2 (by rw [hnat]; exact ⟨h80, hlen⟩)),
    receive_payload cmd count status _ [] payload [check] (by simp [hnat])
      (fun hc mode hm => (modeAgrees_iff ..).2 (hmode hc mode (by simpa using hm)))]
  have hat : (payload ++ [check]).length = (BitVec.ofNat 8 payload.length).toNat + 1 := by rw [hnat]; simp
  have hcheck := checkAnswer_later cmd count status (BitVec.ofNat 8 payload.length) true (later := payload ++ [check]) (by simp)
  rw [if_pos hat, Bool.true_and, answerOf_frame hr] at hcheck
  refine receive_ends (hcheck.trans ?_) ?_
  · simp only [beq_iff_eq]
  · split <;> exact fun h => nomatch h

/-- Settles O9: the fitting frame by `receive_fitting`; every other answer by the character that fails its check. -/
theorem theAnswerChecksAcceptExactlyFittingFrames : Obligations.TheAnswerChecksAcceptExactlyFittingFrames := by
  refine ⟨fun cmd count status check payload r hr hfits h80 hlen hmode => receive_fitting hr hfits h80 hlen hmode,
    fun cmd count status rest h => ?badStatus, fun cmd count status len rest r hr hfits hlen => ?badLength,
    fun count status mode identity rest hr h6 hmode => ?badMode, fun cmd count rx ch h => ?badForm⟩
  case badStatus =>
    have hs : statusAccepted cmd status = false := by
      rcases h with h | ⟨h, hc⟩
      · rw [statusAccepted, h]; rfl
      · exact Bool.eq_false_iff.2 fun ht => hc ((statusAccepted_of_result h).1 ht rfl)
    exact receive_ends (by simp [checkAnswer, hs]) (fun h => nomatch h)
  case badLength =>
    have hl : lengthAccepted cmd count status len = false := Bool.eq_false_iff.2 fun ht => by
      obtain ⟨h80, hfit⟩ := (lengthAccepted_iff hr).1 ht
      rcases hlen with h | h
      · omega
      · exact h hfit
    rw [receive_more (by simp [checkAnswer, (statusAccepted_of_result hr).2 hfits])]
    exact receive_ends (by simp [checkAnswer, hl]) (fun h => nomatch h)
  case badMode =>
    have hhead : receive .identify count [] (status :: 7 :: identity ++ mode :: rest) =
        receive .identify count [status, 7] (identity ++ mode :: rest) :=
      receive_head ((statusAccepted_of_result hr).2 fun h => nomatch h) ((lengthAccepted_iff hr).2 ⟨by decide, rfl⟩)
    rw [hhead, receive_payload .identify count status 7 [] identity _ (by simp [h6]) (by simp [h6])]
    refine receive_ends ?_ (fun h => nomatch h)
    have hdisagrees : payloadAccepted .identify (status :: 7 :: (identity ++ [mode])) = false := Bool.eq_false_iff.2 fun ht => by
      obtain ⟨h0, h1⟩ := (modeAgrees_iff ..).1 ((payloadAccepted_iff ..).1 ht rfl h6)
      rcases hmode with h | h
      · exact h h0
      · exact h h1
    have hlater := checkAnswer_later .identify count status 7 true (later := identity ++ [mode]) (by simp)
    rw [if_neg (by simp [h6]), hdisagrees] at hlater
    exact hlater
  case badForm =>
    have hw : charWellFormed ch = false := by
      rcases h with h | h <;> simp [charWellFormed, h]
    rw [hw]
    cases rx with
    | nil => exact .inl rfl
    | cons status rx =>
      cases rx with
      | nil => exact .inl rfl
      | cons len rx =>
        rw [List.cons_append, List.cons_append, checkAnswer_later _ _ _ _ _ (by simp)]
        split
        · exact .inr rfl
        · exact .inl rfl

end Sys2Proof.Machine
end

section
/-! SUPPORT. What the end of an exchange leaves beside the stations and places: LC's close, the excitation states (R58), and the outcome
as the requesting block takes it. -/

namespace Sys2Proof.Machine

/-! ## The close of an exchange at LC -/

/-- A global fault's condition set leaves everything but the live set and the reports. -/
theorem Device.setGlobal_eq (d : Device) (k : GlobalFault) (on : Bool) :
    d.setGlobal k on = { d with live := (d.setGlobal k on).live, report := (d.setGlobal k on).report } := by
  unfold Device.setGlobal; repeat' split
  all_goals rfl

/-- The close of an exchange leaves everything but LC, the global faults and the reports. -/
theorem Device.closeExchange_eq (d : Device) (c : Code) (o : LinkOutcome) :
    d.closeExchange c o = { d with
      lc := (d.closeExchange c o).lc, live := (d.closeExchange c o).live, report := (d.closeExchange c o).report } := by
  cases o with
  | answered a n => unfold Device.closeExchange; simp only; rw [Device.setGlobal_eq]
  | failed k =>
    unfold Device.closeExchange; simp only; split
    · rw [Device.setGlobal_eq]
    · rfl

section
variable (d : Device) (x : Exchange) (o : LinkOutcome)

theorem Device.heard_eq : d.heard x o = ({ d with
    lc := (d.closeExchange x.station o).lc, live := (d.closeExchange x.station o).live
    report := (d.closeExchange x.station o).report }).setExcitation x.station
      (excitationAfter (d.record x.station).excitation x.cmd o x.frameEnd d.stamp) := by
  unfold Device.heard; rw [Device.closeExchange_eq]; rfl

@[simp] theorem Device.heard_time : (d.heard x o).time = d.time := by rw [Device.heard_eq]; rfl
@[simp] theorem Device.heard_params : (d.heard x o).params = d.params := by rw [Device.heard_eq]; rfl
@[simp] theorem Device.heard_vehicle : (d.heard x o).vehicle = d.vehicle := by rw [Device.heard_eq]; rfl
@[simp] theorem Device.heard_accepted : (d.heard x o).accepted = d.accepted := by rw [Device.heard_eq]; rfl
@[simp] theorem Device.heard_history : (d.heard x o).ss.history = d.ss.history := by rw [Device.heard_eq]; rfl
@[simp] theorem Device.heard_station (k : Code) : (d.heard x o).station k = d.station k := by rw [Device.heard_eq]; rfl
@[simp] theorem Device.heard_stamp : (d.heard x o).stamp = d.stamp := by rw [Device.heard_eq]; rfl

/-- What the requesting block makes of the outcome leaves the rest of the device. -/
theorem Device.handed_still : (d.handed x o).still = d.still := by
  have hd := (Device.goes_deliver (sticky_work d.env) x o).still
  unfold Device.handed; split
  · exact (Device.goes_lateExpiry (sticky_work _) x.station).still.trans hd
  · exact hd

@[simp] theorem Device.handed_vehicle : (d.handed x o).vehicle = d.vehicle := (d.leavesFaults_handed x o).vehicle
@[simp] theorem Device.handed_params : (d.handed x o).params = d.params := (congrArg Device.params (d.handed_still x o) :)
@[simp] theorem Device.handed_accepted : (d.handed x o).accepted = d.accepted := (congrArg Device.accepted (d.handed_still x o) :)
@[simp] theorem Device.handed_history : (d.handed x o).ss.history = d.ss.history := Device.history_of_still (d.handed_still x o)

end

/-! ## The excitation states (R58) -/

/-- The excitation state of every station. -/
def Device.excitations (d : Device) : Code → Excitation := fun k => (d.record k).excitation

theorem Device.excitations_apply (d : Device) (k : Code) : d.excitations k = (d.record k).excitation := rfl

theorem Device.excitations_setRecord (d : Device) (c : Code) (r : ScanRecord) (h : r.excitation = (d.record c).excitation) :
    (d.setRecord c r).excitations = d.excitations := by
  funext k
  simp only [Device.excitations, Device.setRecord_record]
  split
  · rename_i hk; rw [h, hk]
  · rfl

theorem Device.setExcitation_excitations (d : Device) (c k : Code) (e : Excitation) :
    (d.setExcitation c e).excitations k = if k = c then e else d.excitations k := by
  simp only [Device.excitations, Device.setExcitation, Device.setRecord_record]
  split <;> rfl

section
variable (d : Device) (c : Code)

@[simp] theorem Device.excitations_setStation (s : Station) : (d.setStation c s).excitations = d.excitations := rfl
@[simp] theorem Device.excitations_ask (cmd : LinkCommand) (b : Block) : (d.ask c cmd b).excitations = d.excitations := rfl
@[simp] theorem Device.excitations_mapPlaces (f : Place → Place) : (d.mapPlaces f).excitations = d.excitations := rfl
@[simp] theorem Device.excitations_setScanStep (step : ScanStep) : (d.setScanStep c step).excitations = d.excitations :=
  d.excitations_setRecord c _ rfl
@[simp] theorem Device.excitations_stopScanning : (d.stopScanning c).excitations = d.excitations := d.excitations_setRecord c _ rfl
@[simp] theorem Device.excitations_endScan : (d.endScan c).excitations = d.excitations := d.excitations_setRecord c _ rfl
@[simp] theorem Device.excitations_toAbsent : (d.toAbsent c).excitations = d.excitations := rfl
@[simp] theorem Device.excitations_toFaulted : (d.toFaulted c).excitations = d.excitations := rfl
@[simp] theorem Device.excitations_toActive : (d.toActive c).excitations = d.excitations := by
  unfold Device.toActive
  simp only [Device.excitations_mapPlaces]
  exact Device.excitations_setRecord _ c _ rfl
@[simp] theorem Device.excitations_abortNode : (d.abortNode c).excitations = d.excitations := rfl
@[simp] theorem Device.excitations_reload (retained : Bool) (n : Nat) : (d.reload c retained n).excitations = d.excitations := rfl
@[simp] theorem Device.excitations_testNext (step : TestStep) (cmd : LinkCommand) :
    (d.testNext c step cmd).excitations = d.excitations := rfl

@[simp] theorem Device.excitations_askLoading (pattern : Bool) : (d.askLoading c pattern).excitations = d.excitations := by
  unfold Device.askLoading Device.continueLoading; repeat' split
  all_goals rfl

@[simp] theorem Device.excitations_continueLoading : (d.continueLoading c).excitations = d.excitations := by
  unfold Device.continueLoading; split <;> rfl

@[simp] theorem Device.excitations_nodeRestart : (d.nodeRestart c).excitations = d.excitations := by simp [Device.nodeRestart]

@[simp] theorem Device.excitations_takeUpTest : (d.takeUpTest c).excitations = d.excitations := by
  unfold Device.takeUpTest Device.beginTest; split <;> simp

@[simp] theorem Device.excitations_scanFailed : (d.scanFailed c).excitations = d.excitations := by
  unfold Device.scanFailed Device.toSilent; simp only; split <;> simp

@[simp] theorem Device.excitations_askStores (ps qs : List Place) : (d.askStores ps qs).excitations = d.excitations := by
  induction ps generalizing d qs with
  | nil => rfl
  | cons p ps ih =>
    cases qs with
    | nil => rfl
    | cons q qs =>
      unfold Device.askStores
      repeat' split
      all_goals simp [ih]

@[simp] theorem Device.excitations_scanSucceeded (payload : List Byte) : (d.scanSucceeded c payload).excitations = d.excitations := by
  simp [Device.scanSucceeded]

@[simp] theorem Device.excitations_scanOutcome (cmd : LinkCommand) (o : LinkOutcome) :
    (d.scanOutcome c cmd o).excitations = d.excitations := by
  unfold Device.scanOutcome; repeat' split
  all_goals simp

@[simp] theorem Device.excitations_dropMoved (serial : Serial) : (d.dropMoved c serial).excitations = d.excitations := by
  unfold Device.dropMoved
  generalize List.finRange 12 = l
  induction l generalizing d with
  | nil => rfl
  | cons k l ih => rw [List.foldl_cons, ih]; split <;> simp

@[simp] theorem Device.excitations_takeSeat (payload : List Byte) (pattern : Bool) :
    (d.takeSeat c payload pattern).excitations = d.excitations := by
  unfold Device.takeSeat; simp only; split <;> simp

@[simp] theorem Device.excitations_probeOutcome (o : LinkOutcome) : (d.probeOutcome c o).excitations = d.excitations := by
  unfold Device.probeOutcome; simp only; repeat' split
  all_goals simp

@[simp] theorem Device.excitations_reprobeOutcome (o : LinkOutcome) : (d.reprobeOutcome c o).excitations = d.excitations := by
  unfold Device.reprobeOutcome; simp only; repeat' split
  all_goals simp

@[simp] theorem Device.excitations_loadingOutcome (cmd : LinkCommand) (o : LinkOutcome) :
    (d.loadingOutcome c cmd o).excitations = d.excitations := by
  unfold Device.loadingOutcome Device.confirmOutcome; simp only; repeat' split
  all_goals simp

@[simp] theorem Device.excitations_testingOutcome (o : LinkOutcome) : (d.testingOutcome c o).excitations = d.excitations := by
  unfold Device.testingOutcome; repeat' split
  all_goals simp

@[simp] theorem Device.excitations_stationOutcome (cmd : LinkCommand) (o : LinkOutcome) :
    (d.stationOutcome c cmd o).excitations = d.excitations := by
  unfold Device.stationOutcome; split <;> simp

@[simp] theorem Device.excitations_startupNext : (d.startupNext c).excitations = d.excitations := by
  unfold Device.startupNext Device.askProbe; simp only; repeat' split
  all_goals rfl

@[simp] theorem Device.excitations_storeOutcome (seat : Seat) (o : LinkOutcome) : (d.storeOutcome c seat o).excitations = d.excitations := by
  unfold Device.storeOutcome; split
  · cases o with
    | failed k => rfl
    | answered a n => simp only; split <;> simp
  · rfl

/-- What the requesting block makes of an outcome leaves every excitation state: R58's rows are LC's report and SS's alone. -/
@[simp] theorem Device.excitations_deliver (x : Exchange) (o : LinkOutcome) : (d.deliver x o).excitations = d.excitations := by
  unfold Device.deliver; repeat' split
  all_goals simp

@[simp] theorem Device.excitations_handed (x : Exchange) (o : LinkOutcome) : (d.handed x o).excitations = d.excitations := by
  unfold Device.handed Device.lateExpiry; repeat' split
  all_goals simp

@[simp] theorem Device.excitations_settled : d.settled.excitations = d.excitations := by
  funext k; simp [Device.excitations]

/-- The excitation states after the end of an exchange (R58): the station's by its row, every other as it was. -/
theorem Device.endExchange_excitations (x : Exchange) (o : LinkOutcome) (k : Code) :
    (d.endExchange x o).excitations k =
      if k = x.station then excitationAfter (d.record x.station).excitation x.cmd o x.frameEnd d.stamp else d.excitations k := by
  rw [Device.endExchange_eq, Device.excitations_settled, Device.excitations_handed, Device.heard_eq,
    Device.setExcitation_excitations]
  rfl

end

/-! ## An outcome that ST takes -/

/-- An outcome of a station that is not PROBING and does not end SILENT is what ST makes of it, with no expiry waiting. -/
theorem Device.handed_eq_stationOutcome {d : Device} {x : Exchange} {o : LinkOutcome} (hb : x.block = .st)
    (hp : (d.station x.station).state ≠ .probing)
    (hn : ((d.stationOutcome x.station x.cmd o).station x.station).state ≠ .silent) :
    d.handed x o = d.stationOutcome x.station x.cmd o := by
  have hs : d.startupNext x.station = d := by
    unfold Device.startupNext; rw [if_neg]; exact fun h => hp h.2
  have hd : d.deliver x o = d.stationOutcome x.station x.cmd o := by
    simp only [Device.deliver, hb, hs]
  unfold Device.handed
  rw [if_pos hb, hd, Device.lateExpiry, if_neg]
  exact fun h => hn h.1

/-! ## The first loading exchange (R26) -/

/-- With no load status read and a place count of at least 1, seat index 0 is read first. -/
theorem Station.nextToRead_first {s : Station} {n : Nat} (hl : s.load = Vector.replicate 3 none) (hc : s.count = some n) (hn : 1 ≤ n) :
    s.nextToRead = some 0 := by
  have hseats : seatsBelow n = 0 :: (seatsBelow n).tail := by
    have h0 : decide (0 < n) = true := decide_eq_true hn
    simp [seatsBelow, List.finRange_succ, List.filter_cons, h0]
  unfold Station.nextToRead
  rw [hc, Option.getD_some, hseats, List.find?_cons_of_pos]
  rw [hl]; rfl

/-- While a load status is NOT_READ the loading goes on from the next exchange, with every station record as it is. -/
theorem Device.askLoading_station {d : Device} {c : Code} {seat : Seat} (pattern : Bool) (h : (d.station c).nextToRead = some seat)
    (k : Code) : (d.askLoading c pattern).station k = d.station k := by
  unfold Device.askLoading Device.continueLoading
  rw [h]
  split <;> rfl

end Sys2Proof.Machine
end

section
/-! PROOF. The end of an exchange by an accepted answer (O8). -/

namespace Sys2Proof.Machine

/-! ## LC's report (R10, R11) -/

theorem Exchange.report_eq (x : Exchange) (a : Answer) :
    x.report a = .answered { a with boot := (x.carryBoot a).boot } (if x.firstFailure = none then 1 else 2) := by
  have hcarry : x.carryBoot a = { a with boot := (x.carryBoot a).boot } := by
    unfold Exchange.carryBoot; split <;> rfl
  have hattempt : x.attempt = if x.firstFailure = none then 1 else 2 := by
    unfold Exchange.attempt; cases x.firstFailure <;> rfl
  unfold Exchange.report
  rw [← hcarry, hattempt]

/-- The boot flag as R10 sets it. -/
theorem Exchange.carryBoot_boot (x : Exchange) (a : Answer) :
    (x.carryBoot a).boot = true ↔
      a.boot = true ∨ (x.cmd = .identify ∧ (x.firstFailure = some .badCheck ∨ x.firstFailure = some .truncated)) := by
  unfold Exchange.carryBoot; split
  · rename_i h; simp [h]
  · rename_i h; simp [h]

/-! ## The re-probe answered by the station's own seat (R34) -/

/-- The answer is that of the station's own seat: ACK, its own code, an acceptable place count, its serial and count. -/
structure Device.ownSeat (d : Device) (c : Code) (a : Answer) : Prop where
  ack    : a.result = .ack
  code   : identityCode a.payload = c.val + 1
  low    : 1 ≤ identityCount a.payload
  high   : identityCount a.payload ≤ 3
  serial : (d.station c).serial = some (identitySerial a.payload)
  count  : (d.station c).count = some (identityCount a.payload)

theorem Device.ownSeat.acceptable {d : Device} {c : Code} {a : Answer} (h : d.ownSeat c a) : identityAcceptable c a.payload = true := by
  simp [identityAcceptable, countAcceptable, h.code, h.low, h.high]

theorem Device.ownSeat.same {d : Device} {c : Code} {a : Answer} (h : d.ownSeat c a) : (d.station c).sameSeat a.payload = true := by
  simp [Station.sameSeat, h.serial, h.count]

/-- With the boot flag the seat is loaded again, retained. -/
theorem Device.reprobe_restarted {d : Device} {c : Code} {a : Answer} (n : Nat) (h : d.ownSeat c a) (hb : a.boot = true) :
    ((d.reprobeOutcome c (.answered a n)).station c).state = .loading ∧
    ((d.reprobeOutcome c (.answered a n)).station c).retained = true := by
  have hnext : ({ (d.station c).toLoading true with failures := 0, restarted := true } : Station).nextToRead = some 0 :=
    Station.nextToRead_first rfl h.count h.low
  simp only [Device.reprobeOutcome, h.ack, if_true, h.acceptable, Bool.not_true, Bool.false_eq_true, if_false, h.same, hb]
  rw [Device.askLoading_station (seat := 0) a.pattern (by simpa using hnext)]
  simp [Station.toLoading]

/-- Without boot flag and pattern flag the seat is ACTIVE. -/
theorem Device.reprobe_active {d : Device} {c : Code} {a : Answer} (n : Nat) (h : d.ownSeat c a) (hb : a.boot = false)
    (hp : a.pattern = false) : ((d.reprobeOutcome c (.answered a n)).station c).state = .active := by
  simp only [Device.reprobeOutcome, h.ack, if_true, h.acceptable, Bool.not_true, Bool.false_eq_true, if_false, h.same, hb, hp]
  simp [Device.toActive]

/-- What ST makes of a re-probe that its own seat answers stands after the end of the exchange. -/
theorem Device.endExchange_reprobe {d : Device} {x : Exchange} {o : LinkOutcome} (hb : x.block = .st)
    (hs : (d.station x.station).state = .silent)
    (hn : (((d.heard x o).reprobeOutcome x.station o).station x.station).state ≠ .silent) :
    ((d.endExchange x o).station x.station).state = (((d.heard x o).reprobeOutcome x.station o).station x.station).state ∧
    ((d.endExchange x o).station x.station).retained = (((d.heard x o).reprobeOutcome x.station o).station x.station).retained := by
  have ho : (d.heard x o).stationOutcome x.station x.cmd o = (d.heard x o).reprobeOutcome x.station o := by
    simp only [Device.stationOutcome, Device.heard_station, hs]
  have hh : (d.heard x o).handed x o = (d.heard x o).reprobeOutcome x.station o := by
    rw [← ho]
    exact Device.handed_eq_stationOutcome hb (by simp [hs]) (by rw [ho]; exact hn)
  rw [Device.endExchange_eq, Device.settled_station_eq, hh]
  exact ⟨rfl, rfl⟩

/-- Settles O8: LC's close, R58's row (`endExchange_excitations`), and the re-probe of the station's own seat. -/
theorem anAcceptedAnswerEndsTheExchange : Obligations.AnAcceptedAnswerEndsTheExchange := by
  intro m ch s x a hx hp ha
  have hexec : exec (.linkCharacterReceived m ch) s =
      .next { s with dev := ((s.dev.atMoment m).endExchange x (x.report a)).finish } := by
    rw [exec_char_taken hx hp]
    simp only [Device.takeChar, Device.atMoment_station, ha]
  have hexcitation := (s.dev.atMoment m).endExchange_excitations x (x.report a)
  refine ⟨_, (x.carryBoot a).boot, hexec, rfl, ?_, ?_, ?_, ?_, ?_, ?_, ?_, x.report_eq a, x.carryBoot_boot a, ?_, fun k hk => ?_,
    fun hblock hcmd hstate hack hcode hlow hhigh hserial hcount => ?_⟩
  · simp only [Device.finish_lc, Device.endExchange_lc, Device.closeExchange_lc]
  · simp only [Device.finish_lc, Device.endExchange_lc, Device.closeExchange_lc, Exchange.report]
  · simp only [Device.finish_live, Device.endExchange_linkFault, Device.closeExchange_linkFault, Exchange.report]
  · simp [Device.endExchange_eq]
  · simp [Device.endExchange_eq]
  · simp [Device.endExchange_eq]
  · simp [Device.endExchange_eq]
  · exact (hexcitation x.station).trans (by rw [if_pos rfl, Device.atMoment_record])
  · exact (hexcitation k).trans (by rw [if_neg hk, Device.excitations_apply, Device.atMoment_record])
  · have hseat : ((s.dev.atMoment m).heard x (x.report a)).ownSeat x.station { a with boot := (x.carryBoot a).boot } :=
      ⟨hack, hcode, hlow, hhigh, by simpa using hserial, by simpa using hcount⟩
    have hstate' : ((s.dev.atMoment m).station x.station).state = .silent := by simpa using hstate
    refine ⟨fun hb => ?_, fun hb hpattern => ?_⟩
    · have hr := Device.reprobe_restarted (if x.firstFailure = none then 1 else 2) hseat hb
      rw [← x.report_eq a] at hr
      obtain ⟨hs1, hs2⟩ := Device.endExchange_reprobe hblock hstate' (by rw [hr.1]; exact fun h => nomatch h)
      exact ⟨hs1.trans hr.1, hs2.trans hr.2⟩
    · have hr := Device.reprobe_active (if x.firstFailure = none then 1 else 2) hseat hb hpattern
      rw [← x.report_eq a] at hr
      exact (Device.endExchange_reprobe hblock hstate' (by rw [hr]; exact fun h => nomatch h)).1.trans hr

end Sys2Proof.Machine
end

section
/-! PROOF. The end of an exchange of the pattern test (O15): how each change of state stands after the list is rebuilt, then the test's
steps one by one. -/

namespace Sys2Proof.Machine

/-! ## How a change of state stands after the end of the exchange -/

section
variable {d : Device} {c : Code}

theorem Device.goneAbsent_toAbsent : (d.toAbsent c).settled.goneAbsent c := by
  have hs : (d.toAbsent c).station c = Station.absent := by simp [Device.toAbsent]
  have hl : ((d.toAbsent c).station c).listed = false := by rw [hs]; rfl
  refine ⟨?_, fun r hr => ?_, Device.settled_unlisted hl⟩
  · rw [Device.settled_station, Device.rebuild_station_unlisted _ _ hl, hs]
  · rw [Device.settled_waiting] at hr
    have hw : r ∈ d.ss.waiting.filter (fun r => r.station ≠ c) := Device.mem_rebuild_waiting hr
    simpa using (List.mem_filter.1 hw).2

theorem Device.goneFaulted_toFaulted : (d.toFaulted c).settled.goneFaulted c ∧
    ((d.toFaulted c).settled.station c).serial = (d.station c).serial ∧
    ((d.toFaulted c).settled.station c).count = (d.station c).count := by
  have hs : ((d.toFaulted c).station c).state = .faulted := by simp [Device.toFaulted]
  have hl : ((d.toFaulted c).station c).listed = false := by simp [Station.listed, hs]
  have heq : (d.toFaulted c).settled.station c = (d.toFaulted c).station c := by
    rw [Device.settled_station, Device.rebuild_station_unlisted _ _ hl]
  refine ⟨⟨by rw [heq, hs], by rw [heq]; simp [Device.toFaulted], ?_, Device.settled_unlisted hl⟩, by rw [heq]; simp [Device.toFaulted],
    by rw [heq]; simp [Device.toFaulted]⟩
  rw [Device.settled_live, Device.rebuild_live]
  exact List.any_eq_true.2 ⟨c, List.mem_finRange c, by rw [hs]; rfl⟩

/-- A fault of a station's places after the end of an exchange: as on the places that the requesting block left, or as a new place has
it. -/
theorem Device.settled_hasFault {k : FaultKind} {b : Bool} (hold : ∀ p ∈ d.places, p.id.station = c → p.hasFault k = b)
    (hnew : ∀ id : Identity, id.station = c → (d.newPlace id).hasFault k = b) :
    ∀ q ∈ d.settled.places, q.id.station = c → q.hasFault k = b := by
  intro q hq hc
  obtain ⟨p, hp, hqp⟩ := Device.mem_settled hq
  rw [hqp.id_eq] at hc
  rw [hqp.hasFault]
  rcases hp with hp | hp
  · exact hold p hp hc
  · rw [hp]; exact hnew p.id hc

/-- A fault set on the places of a station is what it was set to on each of them. -/
theorem Device.hasFault_mapPlaces_ofStation {k : FaultKind} {b : Bool} {f : Place → Place} (hf : ∀ p, (f p).hasFault k = b) :
    ∀ q ∈ d.places.map (Place.ofStation c f), q.id.station = c → q.hasFault k = b := by
  intro q hq hc
  obtain ⟨p, _, rfl⟩ := List.mem_map.1 hq
  unfold Place.ofStation at hc ⊢
  split
  · exact hf p
  · rename_i hp; rw [if_neg hp] at hc; exact absurd hc hp

theorem Device.hasFault_setFault_places (k : FaultKind) (on : Bool) :
    ∀ q ∈ d.places.map (Place.ofStation c (fun p => p.setFault k on)), q.id.station = c → q.hasFault k = on :=
  Device.hasFault_mapPlaces_ofStation (fun p => by rw [Place.hasFault_setFault, if_pos rfl])

theorem Device.goneActive_toActive : (d.toActive c).settled.goneActive c d.stamp := by
  refine ⟨?_, ?_, ?_, ?_, ?_⟩
  · rw [Device.settled_station_eq]; simp [Device.toActive]
  · rw [Device.settled_station_eq]; simp [Device.toActive]
  · rw [Device.settled_station_eq]; simp [Device.toActive]
  · rw [Device.settled_record]; simp [Device.toActive]
  · refine Device.settled_hasFault (Device.hasFault_setFault_places _ _) fun id hid => ?_
    rw [Device.newPlace_hasFault, if_pos rfl, hid]; simp [Device.toActive]

theorem Device.restarted_reload (retained : Bool) (n : Nat) : (d.reload c retained n).settled.restarted c retained := by
  refine ⟨⟨?_, ?_, ?_, ?_⟩, fun hr => ?_⟩
  · rw [Device.settled_station_eq]; simp [Device.reload, Station.toLoading]
  · rw [Device.settled_station_eq]; simp [Device.reload, Station.toLoading]
  · rw [Device.settled_station_eq]; simp [Device.reload, Station.toLoading]
  · exact Device.askedLast_settled rfl (List.getLast?_concat ..)
  · subst hr
    refine Device.settled_hasFault (Device.hasFault_setFault_places _ _) fun id hid => ?_
    rw [Device.newPlace_hasFault, if_pos rfl, hid]; simp [Device.reload, Station.toLoading]

/-- The test goes on: TESTING as before, with its next step, whose exchange is asked for last. -/
theorem Device.testNext_settled (next : TestStep) {cmd : LinkCommand} (hcmd : cmd.notStore = true) :
    ((d.testNext c next cmd).settled.station c).state = (d.station c).state ∧
    ((d.testNext c next cmd).settled.station c).retained = (d.station c).retained ∧
    ((d.testNext c next cmd).settled.station c).test = some next ∧ (d.testNext c next cmd).settled.askedLast c cmd := by
  refine ⟨?_, ?_, ?_, Device.askedLast_settled hcmd (List.getLast?_concat ..)⟩
  · rw [Device.settled_station_eq]; simp [Device.testNext]
  · rw [Device.settled_station_eq]; simp [Device.testNext]
  · rw [Device.settled_station_eq]; simp [Device.testNext]

end

/-! ## The fixed pattern (R19) -/

theorem patternPayload_eq (n : Nat) :
    patternPayload n = (List.replicate n ((List.replicate 6 [0x0A, 0xAA, 0x05, 0x55]).flatten ++ [0x5A])).flatten := by
  induction n with
  | zero => rfl
  | succ n ih => rw [patternPayload, ih, List.replicate_succ, List.flatten_cons]; rfl

theorem patternMatches_iff (count : Option Nat) (a : Answer) :
    patternMatches count a = true ↔ a.result = .ack ∧ a.pattern = true ∧
      a.payload = (List.replicate (count.getD 0) ((List.replicate 6 [0x0A, 0xAA, 0x05, 0x55]).flatten ++ [0x5A])).flatten := by
  rw [← patternPayload_eq]
  simp [patternMatches, and_assoc]

/-! ## The steps of the test (R29, R30, R33) -/

/-- The SAMPLE after which the pattern does not match: LINK_PATTERN on each listed place, then the PATTERN_OFF. -/
def Device.patternMissed (d : Device) (c : Code) : Device :=
  (d.mapPlaces (Place.ofStation c (fun p => p.setFault .linkPattern true))).testNext c (.patternOff false) .patternOff

/-- What ST makes of an answer without boot flag, by the step whose exchange it answers; not that of the PATTERN_OFF after a mismatch
(`Device.testing_answered`). -/
def Device.testAnswered (d : Device) (c : Code) (step : TestStep) (a : Answer) : Device :=
  match step with
  | .patternOn again =>
    if a.result = .ack then d.testNext c .sample .sample
    else if a.excited ∧ again = false then d.testNext c .relax .relax
    else d.toAbsent c
  | .relax => d.testNext c (.patternOn true) .patternOn
  | .sample =>
    if patternMatches (d.station c).count a then d.testNext c (.patternOff true) .patternOff else d.patternMissed c
  | .patternOff _ => if a.result = .ack then d.toActive c else d.toAbsent c

theorem Device.patternMissed_hasFault {d : Device} {c : Code} (hs : (d.station c).state = .testing) :
    ∀ q ∈ (d.patternMissed c).settled.places, q.id.station = c → q.hasFault .linkPattern = true := by
  refine Device.settled_hasFault (Device.hasFault_setFault_places _ _) fun id hid => ?_
  rw [Device.newPlace_hasFault, hid]
  simp [Device.patternMissed, Device.testNext, hs]

section
variable {d : Device} {c : Code}

theorem Device.testing_afterMismatch (o : LinkOutcome) (ht : (d.station c).test = some (.patternOff false)) :
    d.testingOutcome c o = d.toFaulted c := by
  simp only [Device.testingOutcome, ht]

variable {step : TestStep} (ht : (d.station c).test = some step)
include ht

theorem Device.testing_failed (hm : step ≠ .patternOff false) (k : FailKind) : d.testingOutcome c (.failed k) = d.toAbsent c := by
  unfold Device.testingOutcome
  rw [ht]
  split
  · rename_i h; cases h; exact absurd rfl hm
  · rfl

theorem Device.testing_booted (hm : step ≠ .patternOff false) {a : Answer} (n : Nat) (hb : a.boot = true) :
    d.testingOutcome c (.answered a n) = d.reload c (d.station c).retained (d.station c).failures := by
  unfold Device.testingOutcome
  rw [ht]
  split
  · rename_i h; cases h; exact absurd rfl hm
  · simp only [hb, if_true]

theorem Device.testing_answered (hm : step ≠ .patternOff false) {a : Answer} (n : Nat) (hb : a.boot = false) :
    d.testingOutcome c (.answered a n) = d.testAnswered c step a := by
  unfold Device.testingOutcome
  rw [ht]
  split
  · rename_i h; cases h; exact absurd rfl hm
  · simp only [hb, Bool.false_eq_true, if_false]
    cases step <;> rfl

/-- No outcome of the test leaves the station SILENT. -/
theorem Device.testing_notSilent (hs : (d.station c).state = .testing) (o : LinkOutcome) :
    ((d.testingOutcome c o).station c).state ≠ .silent := by
  have habsent : ((d.toAbsent c).station c).state ≠ .silent := by simp [Device.toAbsent, Station.absent]
  have hnext : ∀ next cmd, ((d.testNext c next cmd).station c).state ≠ .silent := by simp [Device.testNext, hs]
  by_cases hm : step = .patternOff false
  · subst hm
    rw [Device.testing_afterMismatch o ht]; simp [Device.toFaulted]
  · cases o with
    | failed k => rw [Device.testing_failed ht hm]; exact habsent
    | answered a n =>
      cases hb : a.boot with
      | true => rw [Device.testing_booted ht hm n hb]; simp [Device.reload, Station.toLoading]
      | false =>
        rw [Device.testing_answered ht hm n hb]
        cases step with
        | patternOn again =>
          unfold Device.testAnswered; simp only
          repeat' split
          · exact hnext _ _
          · exact hnext _ _
          · exact habsent
        | relax => exact hnext _ _
        | sample =>
          unfold Device.testAnswered; simp only
          split
          · exact hnext _ _
          · simp [Device.patternMissed, Device.testNext, hs]
        | patternOff matched =>
          unfold Device.testAnswered; simp only
          split
          · simp [Device.toActive]
          · exact habsent

end

/-- The end of an exchange of the pattern test is its outcome at ST, with the list rebuilt. -/
theorem Device.endExchange_testing {d : Device} {x : Exchange} {o : LinkOutcome} {step : TestStep} (hb : x.block = .st)
    (hs : (d.station x.station).state = .testing) (ht : (d.station x.station).test = some step) :
    d.endExchange x o = ((d.heard x o).testingOutcome x.station o).settled := by
  have hs' : ((d.heard x o).station x.station).state = .testing := by simpa using hs
  have ho : (d.heard x o).stationOutcome x.station x.cmd o = (d.heard x o).testingOutcome x.station o := by
    simp only [Device.stationOutcome, hs']
  have hn := Device.testing_notSilent (d := d.heard x o) (by simpa using ht) hs' o
  rw [Device.endExchange_eq, ← ho]
  congr 1
  exact Device.handed_eq_stationOutcome hb (by rw [hs']; exact fun h => nomatch h) (by rw [ho]; exact hn)

/-- Settles O15: each step by the equation of its outcome (`testing_answered`) and how that outcome stands after the rebuild. -/
theorem thePatternTestEndsActiveFaultedOrAbsent : Obligations.ThePatternTestEndsActiveFaultedOrAbsent := by
  intro i m o s x step hx hend hb hs ht
  obtain ⟨rx, he⟩ := exec_of_endOf hx hend
  have hend' := Device.endExchange_testing (d := s.dev.atMoment m) (x := { x with rx := rx }) (o := o) (step := step) hb (by simpa using hs)
    (by simpa using ht)
  rw [hend'] at he
  generalize hd : (s.dev.atMoment m).heard { x with rx := rx } o = d at he
  have hstation : d.station x.station = s.dev.station x.station := by rw [← hd]; simp
  have hstamp : d.stamp = (s.dev.atMoment m).stamp := by rw [← hd]; simp
  rw [← hstation] at hs ht ⊢
  rw [← hstamp]
  refine ⟨_, he, rfl, fun hstep => ?mismatch, fun hstep => ⟨fun k ho => ?failed, fun a attempts ho => ?answered⟩⟩
  case mismatch =>
    subst hstep
    rw [Device.testing_afterMismatch o ht]
    exact Device.goneFaulted_toFaulted
  case failed =>
    subst ho
    rw [Device.testing_failed ht hstep]
    exact Device.goneAbsent_toAbsent
  case answered =>
    subst ho
    have hnext : ∀ (next : TestStep) {cmd : LinkCommand}, cmd.notStore = true →
        ((d.testNext x.station next cmd).settled.station x.station).state = .testing ∧
        ((d.testNext x.station next cmd).settled.station x.station).retained = (d.station x.station).retained ∧
        ((d.testNext x.station next cmd).settled.station x.station).test = some next ∧
        (d.testNext x.station next cmd).settled.askedLast x.station cmd := by
      intro next cmd hcmd
      have h := Device.testNext_settled (d := d) (c := x.station) next hcmd
      rwa [hs] at h
    refine ⟨fun hboot => ?boot, fun hboot again hst => ⟨fun hr => ?on, fun hr hex hag => ?relaxed, fun hr hex => ?refused⟩,
      fun hboot hst => ?relax, fun hboot hst => ?sample, fun hboot hst => ⟨fun hr => ?active, fun hr => ?absent⟩⟩
    case boot =>
      rw [Device.testing_booted ht hstep attempts hboot]; exact Device.restarted_reload _ _
    all_goals
      subst hst
      rw [Device.testing_answered ht hstep attempts hboot, Device.testAnswered]
    case on =>
      rw [if_pos hr]; exact hnext .sample rfl
    case relaxed =>
      rw [if_neg hr, if_pos ⟨hex, hag⟩]; exact hnext .relax rfl
    case refused =>
      rw [if_neg hr, if_neg]
      · exact Device.goneAbsent_toAbsent
      · rintro ⟨h1, h2⟩
        rcases hex with h | h
        · rw [h] at h1; cases h1
        · rw [h] at h2; cases h2
    case relax => exact hnext (.patternOn true) rfl
    case sample =>
      by_cases hmatch : patternMatches (d.station x.station).count a = true
      · rw [if_pos hmatch, if_pos ((patternMatches_iff ..).1 hmatch)]
        exact hnext (.patternOff true) rfl
      · rw [if_neg hmatch, if_neg (mt (patternMatches_iff ..).2 hmatch)]
        refine ⟨?_, Device.patternMissed_hasFault hs⟩
        have h := Device.testNext_settled
          (d := d.mapPlaces (Place.ofStation x.station (fun p => p.setFault .linkPattern true))) (c := x.station) (.patternOff false)
          (cmd := .patternOff) rfl
        rwa [Device.mapPlaces_station, hs] at h
    case active =>
      rw [if_pos hr]; exact Device.goneActive_toActive
    case absent =>
      rw [if_neg hr]; exact Device.goneAbsent_toAbsent

end Sys2Proof.Machine
end

section
/-! SUPPORT. What the work on one station leaves at every other station (`Device.Elsewhere`), and the law of the stations through that
work (R21, R31, R57, R68). -/

namespace Sys2Proof.Machine

/-! ## Every other station -/

/-- From `d` to `e` every station but `c` keeps its record and its scan record. -/
def Device.Elsewhere (c : Code) (d e : Device) : Prop := ∀ k : Code, k ≠ c → e.station k = d.station k ∧ e.record k = d.record k

section
variable {c : Code} {d e f : Device}

theorem Device.Elsewhere.trans (h : Device.Elsewhere c d e) (h' : Device.Elsewhere c e f) : Device.Elsewhere c d f := fun k hk =>
  ⟨(h' k hk).1.trans (h k hk).1, (h' k hk).2.trans (h k hk).2⟩

theorem Device.elsewhere_of_eq (h1 : ∀ k, e.station k = d.station k) (h2 : ∀ k, e.record k = d.record k) : Device.Elsewhere c d e :=
  fun k _ => ⟨h1 k, h2 k⟩

theorem Device.Elsewhere.refl : Device.Elsewhere c d d := fun _ _ => ⟨rfl, rfl⟩

end

section
variable (d : Device) (c : Code)

theorem Device.elsewhere_setStation (s : Station) : Device.Elsewhere c d (d.setStation c s) := fun k hk => by simp [hk]
theorem Device.elsewhere_setRecord (r : ScanRecord) : Device.Elsewhere c d (d.setRecord c r) := fun k hk => by simp [hk]
theorem Device.elsewhere_setExcitation (e : Excitation) : Device.Elsewhere c d (d.setExcitation c e) := d.elsewhere_setRecord c _
theorem Device.elsewhere_setScanStep (step : ScanStep) : Device.Elsewhere c d (d.setScanStep c step) := d.elsewhere_setRecord c _
theorem Device.elsewhere_toAbsent : Device.Elsewhere c d (d.toAbsent c) := d.elsewhere_setStation c _
theorem Device.elsewhere_toFaulted : Device.Elsewhere c d (d.toFaulted c) := d.elsewhere_setStation c _
theorem Device.elsewhere_reload (retained : Bool) (n : Nat) : Device.Elsewhere c d (d.reload c retained n) := d.elsewhere_setStation c _
theorem Device.elsewhere_testNext (step : TestStep) (cmd : LinkCommand) : Device.Elsewhere c d (d.testNext c step cmd) :=
  d.elsewhere_setStation c _
theorem Device.elsewhere_toActive : Device.Elsewhere c d (d.toActive c) := fun k hk => by
  simp [Device.toActive, hk]
theorem Device.elsewhere_nodeRestart : Device.Elsewhere c d (d.nodeRestart c) :=
  (d.elsewhere_setRecord c _).trans (Device.elsewhere_reload ((d.stopScanning c).abortNode c) c true 0)

theorem Device.elsewhere_continueLoading : Device.Elsewhere c d (d.continueLoading c) := by
  unfold Device.continueLoading; split
  · exact .refl
  · exact d.elsewhere_setStation c _

theorem Device.elsewhere_takeUpTest : Device.Elsewhere c d (d.takeUpTest c) := by
  unfold Device.takeUpTest; split
  · exact fun k hk => by simp [Device.beginTest, hk]
  · exact .refl

theorem Device.elsewhere_toSilent : Device.Elsewhere c d (d.toSilent c) := fun k hk => by
  simp [Device.toSilent, Device.abortNode, hk]

theorem Device.elsewhere_scanFailed : Device.Elsewhere c d (d.scanFailed c) := by
  have hend : Device.Elsewhere c d (d.endScan c) := d.elsewhere_setRecord c _
  unfold Device.scanFailed; simp only; split
  · exact hend.trans (Device.elsewhere_toSilent _ c)
  · exact hend.trans ((Device.elsewhere_setStation _ c _).trans (Device.elsewhere_takeUpTest _ c))

end

/-- CU's requests change no station and no scan record. -/
theorem Device.askStores_records (d : Device) (ps qs : List Place) :
    (∀ k, (d.askStores ps qs).station k = d.station k) ∧ ∀ k, (d.askStores ps qs).record k = d.record k := by
  induction ps generalizing d qs with
  | nil => exact ⟨fun _ => rfl, fun _ => rfl⟩
  | cons p ps ih =>
    cases qs with
    | nil => exact ⟨fun _ => rfl, fun _ => rfl⟩
    | cons q qs =>
      unfold Device.askStores
      repeat' split
      all_goals exact ih _ _

/-! ## Check 2 of R25 -/

/-- A SILENT station other than `c` that has the serial: check 2 of R25 makes it ABSENT. -/
abbrev Device.movedTo (d : Device) (c : Code) (serial : Serial) (k : Code) : Prop :=
  k ≠ c ∧ (d.station k).state = .silent ∧ (d.station k).serial = some serial

/-- Check 2 of R25 over a list of station codes. -/
def Device.dropMovedIn (d : Device) (c : Code) (serial : Serial) (l : List Code) : Device :=
  l.foldl (fun d k => if d.movedTo c serial k then d.toAbsent k else d) d

theorem Device.dropMoved_eq (d : Device) (c : Code) (serial : Serial) :
    d.dropMoved c serial = d.dropMovedIn c serial (List.finRange 12) := rfl

section
variable (d : Device) (c : Code) (serial : Serial)

theorem Device.dropMovedIn_cons (k : Code) (l : List Code) :
    d.dropMovedIn c serial (k :: l) = (if d.movedTo c serial k then d.toAbsent k else d).dropMovedIn c serial l := rfl

@[simp] theorem Device.toAbsent_station (k : Code) : (d.toAbsent c).station k = if k = c then Station.absent else d.station k := by
  simp [Device.toAbsent]
@[simp] theorem Device.toAbsent_record (k : Code) : (d.toAbsent c).record k = d.record k := rfl
theorem Device.toAbsent_waiting : (d.toAbsent c).ss.waiting = d.ss.waiting.filter (fun r => r.station ≠ c) := rfl

/-- A station made ABSENT has moved to no seat any more; for every other one nothing changes. -/
theorem Device.movedTo_toAbsent (j k : Code) : (d.toAbsent j).movedTo c serial k ↔ k ≠ j ∧ d.movedTo c serial k := by
  by_cases h : k = j <;> simp [Device.movedTo, h, Station.absent]

theorem Device.dropMovedIn_station (l : List Code) (k : Code) :
    (d.dropMovedIn c serial l).station k = if k ∈ l ∧ d.movedTo c serial k then Station.absent else d.station k := by
  induction l generalizing d with
  | nil => simp [Device.dropMovedIn]
  | cons j l ih =>
    rw [Device.dropMovedIn_cons]
    by_cases hj : d.movedTo c serial j
    · rw [if_pos hj, ih]
      simp only [Device.movedTo_toAbsent, Device.toAbsent_station]
      by_cases hk : k = j
      · subst hk; simp [hj]
      · simp [hk]
    · rw [if_neg hj, ih]
      by_cases hk : k = j
      · subst hk; simp [hj]
      · simp [hk]

theorem Device.dropMovedIn_record (l : List Code) (k : Code) : (d.dropMovedIn c serial l).record k = d.record k := by
  induction l generalizing d with
  | nil => rfl
  | cons j l ih => rw [Device.dropMovedIn_cons, ih]; split <;> rfl

theorem Device.dropMovedIn_waiting (l : List Code) :
    (d.dropMovedIn c serial l).ss.waiting =
      d.ss.waiting.filter (fun r => decide ¬ (r.station ∈ l ∧ d.movedTo c serial r.station)) := by
  induction l generalizing d with
  | nil => simp [Device.dropMovedIn]
  | cons j l ih =>
    rw [Device.dropMovedIn_cons]
    by_cases hj : d.movedTo c serial j
    · rw [if_pos hj, ih, Device.toAbsent_waiting, List.filter_filter]
      refine List.filter_congr fun r _ => ?_
      by_cases hr : r.station = j
      · simp [hr, hj]
      · simp [hr, Device.movedTo_toAbsent]
    · rw [if_neg hj, ih]
      refine List.filter_congr fun r _ => ?_
      by_cases hr : r.station = j
      · simp [hr, hj]
      · simp [hr]

/-- After check 2 of R25 every SILENT station that had the serial is ABSENT, and every other record is as it was. -/
theorem Device.dropMoved_station (k : Code) :
    (d.dropMoved c serial).station k = if d.movedTo c serial k then Station.absent else d.station k := by
  rw [Device.dropMoved_eq, Device.dropMovedIn_station]; simp

@[simp] theorem Device.dropMoved_record (k : Code) : (d.dropMoved c serial).record k = d.record k :=
  d.dropMovedIn_record c serial _ k

@[simp] theorem Device.dropMoved_station_self : (d.dropMoved c serial).station c = d.station c := by
  rw [Device.dropMoved_station, if_neg]; exact fun h => h.1 rfl

/-- The requests of a station made ABSENT by check 2 are withdrawn, and no other. -/
theorem Device.dropMoved_waiting :
    (d.dropMoved c serial).ss.waiting = d.ss.waiting.filter (fun r => decide ¬ d.movedTo c serial r.station) := by
  rw [Device.dropMoved_eq, Device.dropMovedIn_waiting]; simp

end

/-! ## The law of the stations (R21, R22, R31, R57, R68) -/

/-- The law of every station but `c`, and at `c` what an event finds that puts it into a state other than ACTIVE. -/
structure Device.OpenAt (d : Device) (c : Code) : Prop where
  others   : ∀ k : Code, k ≠ c → d.stationLaw k
  failures : (d.station c).failures ≤ 3
  pending  : (d.station c).testPending = false
  due      : (d.record c).due = none
  scan     : (d.record c).scan = none

section
variable {d e : Device} {c : Code}

/-- The law of a station reads its record, its due time and whether a scan is in progress. -/
theorem Device.stationLaw_of_eq (h : d.stationLaw c) (h1 : e.station c = d.station c) (h2 : (e.record c).due = (d.record c).due)
    (h3 : (e.record c).scan.isSome = (d.record c).scan.isSome) : e.stationLaw c := by
  unfold Device.stationLaw; rw [h1, h2, h3]; exact h

theorem Device.stationsLaw_of_elsewhere (h : ∀ k, k ≠ c → d.stationLaw k) (he : Device.Elsewhere c d e) (hc : e.stationLaw c) :
    e.stationsLaw := fun k => by
  by_cases hk : k = c
  · subst hk; exact hc
  · obtain ⟨h1, h2⟩ := he k hk
    exact Device.stationLaw_of_eq (h k hk) h1 (by rw [h2]) (by rw [h2])

/-- A station that is not ACTIVE has no due time, no scan and no pending LINK_TEST. -/
theorem Device.openAt (h : d.stationsLaw) (ha : (d.station c).state ≠ .active) : d.OpenAt c := by
  obtain ⟨hfail, -, -, -, -, -, hpend, -, hdue, hscan⟩ := h c
  refine ⟨fun k _ => h k, hfail, ?_, ?_, ?_⟩
  · exact Bool.eq_false_iff.2 fun hp => ha (hpend hp)
  · exact Option.isSome_eq_false_iff.1 (Bool.eq_false_iff.2 fun hd => ha (hdue.1 hd)) |> Option.isNone_iff_eq_none.1
  · exact Option.isSome_eq_false_iff.1 (Bool.eq_false_iff.2 fun hs => ha (hscan hs)) |> Option.isNone_iff_eq_none.1

theorem Device.OpenAt.of_elsewhere (h : d.OpenAt c) (he : Device.Elsewhere c d e) (h1 : (e.station c).failures ≤ 3)
    (h2 : (e.station c).testPending = false) (h3 : e.record c = d.record c) : e.OpenAt c :=
  ⟨fun k hk => Device.stationLaw_of_eq (h.others k hk) (he k hk).1 (by rw [(he k hk).2]) (by rw [(he k hk).2]), h1, h2,
    by rw [h3]; exact h.due, by rw [h3]; exact h.scan⟩

theorem Device.OpenAt.toAbsent (h : d.OpenAt c) : (d.toAbsent c).stationsLaw :=
  Device.stationsLaw_of_elsewhere h.others (d.elsewhere_toAbsent c) (by
    simp [Device.stationLaw, h.due, h.scan, Station.absent])

theorem Device.OpenAt.toFaulted (h : d.OpenAt c) : (d.toFaulted c).stationsLaw :=
  Device.stationsLaw_of_elsewhere h.others (d.elsewhere_toFaulted c) (by
    have hf : (if (d.station c).state = .silent then 0 else (d.station c).failures) ≤ 3 := by
      split
      · omega
      · exact h.failures
    simp [Device.stationLaw, Device.toFaulted, h.due, h.scan, h.pending, hf])

theorem Device.OpenAt.toActive (h : d.OpenAt c) : (d.toActive c).stationsLaw :=
  Device.stationsLaw_of_elsewhere h.others (d.elsewhere_toActive c) (by
    simp [Device.stationLaw, Device.toActive])

/-- A station enters LOADING (R26). -/
theorem Device.OpenAt.toLoading (h : d.OpenAt c) (retained restarted : Bool) {n : Nat} (hn : n ≤ 3) :
    (d.setStation c { (d.station c).toLoading retained with failures := n, restarted := restarted }).stationsLaw :=
  Device.stationsLaw_of_elsewhere h.others (d.elsewhere_setStation c _) (by
    simp [Device.stationLaw, Station.toLoading, h.due, h.scan, hn])

end

end Sys2Proof.Machine
end

section
/-! SUPPORT. The law of the stations through the outcomes of exchanges (R21 to R37): each outcome keeps it, given the state of the
station in which its block takes it. -/

namespace Sys2Proof.Machine

/-! ## Loading and testing -/

section
variable {d : Device} {c : Code}

theorem Device.stationsLaw_loadingComplete (h : d.stationsLaw) (hs : (d.station c).state = .loading) :
    (d.loadingComplete c).stationsLaw := by
  have hc := d.openAt (c := c) h (by simp [hs])
  exact Device.stationsLaw_of_elsewhere hc.others (d.elsewhere_setStation c _) (by
    simp [Device.stationLaw, Device.loadingComplete, hc.failures, hc.pending, hc.due, hc.scan])

theorem Device.stationsLaw_continueLoading (h : d.stationsLaw) (hs : (d.station c).state = .loading) :
    (d.continueLoading c).stationsLaw := by
  unfold Device.continueLoading; split
  · exact h
  · exact Device.stationsLaw_loadingComplete h hs

theorem Device.stationsLaw_askLoading (pattern : Bool) (h : d.stationsLaw) (hs : (d.station c).state = .loading) :
    (d.askLoading c pattern).stationsLaw := by
  unfold Device.askLoading; split
  · exact h
  · exact Device.stationsLaw_continueLoading h hs

theorem Device.stationsLaw_testNext (step : TestStep) (cmd : LinkCommand) (h : d.stationsLaw) (hs : (d.station c).state = .testing) :
    (d.testNext c step cmd).stationsLaw := by
  have hc := d.openAt (c := c) h (by simp [hs])
  exact Device.stationsLaw_of_elsewhere hc.others (d.elsewhere_testNext c step cmd) (by
    simp [Device.stationLaw, Device.testNext, hs, hc.failures, hc.pending, hc.due, hc.scan])

theorem Device.stationsLaw_reload (retained : Bool) {n : Nat} (hn : n ≤ 3) (h : d.OpenAt c) : (d.reload c retained n).stationsLaw :=
  Device.stationsLaw_of_elsewhere h.others (d.elsewhere_reload c retained n) (by
    simp [Device.stationLaw, Device.reload, Station.toLoading, h.due, h.scan, hn])

/-! ## Scans -/

theorem Device.stationsLaw_setScanStep (step : ScanStep) (h : d.stationsLaw) : (d.setScanStep c step).stationsLaw :=
  Device.stationsLaw_of_elsewhere (fun k _ => h k) (d.elsewhere_setScanStep c step)
    (Device.stationLaw_of_eq (h c) rfl (by simp) (by simp))

theorem Device.stationsLaw_setExcitation (e : Excitation) (h : d.stationsLaw) : (d.setExcitation c e).stationsLaw :=
  Device.stationsLaw_of_elsewhere (fun k _ => h k) (d.elsewhere_setExcitation c e)
    (Device.stationLaw_of_eq (h c) rfl (by simp [Device.setExcitation]) (by simp [Device.setExcitation]))

theorem Device.stationsLaw_nodeRestart (h : d.stationsLaw) : (d.nodeRestart c).stationsLaw :=
  Device.stationsLaw_of_elsewhere (fun k _ => h k) (d.elsewhere_nodeRestart c) (by
    simp [Device.stationLaw, Device.nodeRestart, Device.abortNode, Device.reload, Station.toLoading])

/-- An ACTIVE station is neither retained nor restarted, and in no pattern test. -/
theorem Device.stationLaw.of_active (h : d.stationLaw c) (ha : (d.station c).state = .active) :
    (d.station c).failures ≤ 3 ∧ (d.station c).retained = false ∧ (d.station c).restarted = false ∧ (d.station c).test = none ∧
    (d.record c).due.isSome = true := by
  obtain ⟨hfail, -, -, -, hret, hres, -, htest, hdue, -⟩ := h
  refine ⟨hfail, ?_, ?_, ?_, hdue.2 ha⟩
  · exact Bool.eq_false_iff.2 fun hr => by simpa [ha] using hret hr
  · exact Bool.eq_false_iff.2 fun hr => by simpa [ha] using hres hr
  · exact Option.not_isSome_iff_eq_none.1 fun ht => by simpa [ha] using htest.1 ht

theorem Device.stationsLaw_takeUpTest (h : d.stationsLaw) : (d.takeUpTest c).stationsLaw := by
  unfold Device.takeUpTest
  split
  · rename_i hg
    obtain ⟨hfail, -, -, -, -⟩ := (h c).of_active hg.1
    have hat : (d.beginTest c).stationLaw c := by simp [Device.stationLaw, Device.beginTest, hfail]
    exact Device.stationsLaw_of_elsewhere (fun k _ => h k) (fun k hk => by simp [Device.beginTest, hk]) hat
  · exact h

/-- An ACTIVE station's scan ends, with its failure count below 3. -/
theorem Device.stationsLaw_endScan {n : Nat} (hn : n ≤ 3) (h : d.stationsLaw) (ha : (d.station c).state = .active) :
    ((d.endScan c).setStation c { d.station c with failures := n }).stationsLaw := by
  obtain ⟨-, hret, hres, htest, hdue⟩ := (h c).of_active ha
  exact Device.stationsLaw_of_elsewhere (fun k _ => h k)
    ((d.elsewhere_setRecord c _).trans (Device.elsewhere_setStation _ c _)) (by
      simp [Device.stationLaw, ha, hn, hret, hres, htest, hdue])

theorem Device.stationsLaw_scanFailed (h : d.stationsLaw) (ha : (d.station c).state = .active) : (d.scanFailed c).stationsLaw := by
  obtain ⟨-, hret, hres, htest, -⟩ := (h c).of_active ha
  unfold Device.scanFailed; simp only
  split
  · exact Device.stationsLaw_of_elsewhere (fun k _ => h k) ((d.elsewhere_setRecord c _).trans (Device.elsewhere_toSilent _ c)) (by
      simp [Device.stationLaw, Device.toSilent, Device.abortNode, hret, hres, htest])
  · rename_i hn
    exact Device.stationsLaw_takeUpTest (Device.stationsLaw_endScan (by omega) h ha)

theorem Device.stationsLaw_scanSucceeded (payload : List Byte) (h : d.stationsLaw) (ha : (d.station c).state = .active) :
    (d.scanSucceeded c payload).stationsLaw := by
  have hcounted := Device.stationsLaw_endScan (n := 0) (by omega) h ha
  unfold Device.scanSucceeded
  refine Device.stationsLaw_takeUpTest fun k => ?_
  obtain ⟨hst, hrec⟩ := Device.askStores_records
    (((d.mapPlaces (Place.ofStation c (fun p =>
      p.pass d.env ((d.station c).valuesOf p.id.seat) (readingsOf payload p.id.seat)))).endScan c).setStation c
        { d.station c with failures := 0 }) d.places
    (d.mapPlaces (Place.ofStation c (fun p =>
      p.pass d.env ((d.station c).valuesOf p.id.seat) (readingsOf payload p.id.seat)))).places
  exact Device.stationLaw_of_eq (hcounted k) (hst k) (by rw [hrec]; rfl) (by rw [hrec]; rfl)

theorem Device.stationsLaw_scanOutcome (cmd : LinkCommand) (o : LinkOutcome) (h : d.stationsLaw) (ha : (d.station c).state = .active) :
    (d.scanOutcome c cmd o).stationsLaw := by
  unfold Device.scanOutcome
  repeat' split
  all_goals first
    | with_reducible exact Device.stationsLaw_nodeRestart h
    | with_reducible exact Device.stationsLaw_setScanStep _ h
    | with_reducible exact Device.stationsLaw_scanFailed h ha
    | with_reducible exact Device.stationsLaw_scanSucceeded _ h ha

theorem Device.stationsLaw_storeOutcome (seat : Seat) (o : LinkOutcome) (h : d.stationsLaw) : (d.storeOutcome c seat o).stationsLaw := by
  have hmap : ∀ f, (d.mapPlaces f).stationsLaw := fun _ => h
  unfold Device.storeOutcome
  split
  · cases o with
    | failed k => exact hmap _
    | answered a n =>
      simp only; split
      · exact Device.stationsLaw_nodeRestart (hmap _)
      · exact hmap _
  · exact h

/-! ## IDENTIFY -/

/-- Check 2 of R25 leaves the law of every other station, and the station itself. -/
theorem Device.OpenAt.dropMoved (serial : Serial) (h : d.OpenAt c) : (d.dropMoved c serial).OpenAt c := by
  refine ⟨fun k hk => ?_, by simpa using h.failures, by simpa using h.pending, by simpa using h.due, by simpa using h.scan⟩
  by_cases hm : d.movedTo c serial k
  · obtain ⟨-, -, -, -, -, -, -, -, hdue, hscan⟩ := h.others k hk
    have hn : (d.station k).state ≠ .active := by rw [hm.2.1]; exact fun h => nomatch h
    have h1 : (d.record k).due = none := Option.not_isSome_iff_eq_none.1 fun hd => hn (hdue.1 hd)
    have h2 : (d.record k).scan = none := Option.not_isSome_iff_eq_none.1 fun hd => hn (hscan hd)
    have hs : (d.dropMoved c serial).station k = Station.absent := by rw [Device.dropMoved_station, if_pos hm]
    simp [Device.stationLaw, hs, h1, h2, Station.absent]
  · exact Device.stationLaw_of_eq (h.others k hk) (by rw [Device.dropMoved_station, if_neg hm]) (by simp) (by simp)

theorem Device.OpenAt.recordIdentity (payload : List Byte) (h : d.OpenAt c) :
    (d.setStation c ((d.station c).recordIdentity payload)).OpenAt c :=
  h.of_elsewhere (d.elsewhere_setStation c _) (by simpa [Station.recordIdentity] using h.failures)
    (by simpa [Station.recordIdentity] using h.pending) rfl

theorem Device.OpenAt.takeSeat (payload : List Byte) (pattern : Bool) (h : d.OpenAt c) : (d.takeSeat c payload pattern).stationsLaw := by
  have hm := h.dropMoved (identitySerial payload)
  unfold Device.takeSeat; simp only
  split
  · exact hm.toFaulted
  · exact Device.stationsLaw_askLoading _ (hm.toLoading false false (by omega)) (by simp [Station.toLoading])

theorem Device.OpenAt.probeOutcome (o : LinkOutcome) (h : d.OpenAt c) : (d.probeOutcome c o).stationsLaw := by
  unfold Device.probeOutcome
  split
  · exact h.toAbsent
  · split
    · simp only; split
      · exact (h.recordIdentity _).takeSeat _ _
      · exact (h.recordIdentity _).toFaulted
    · exact (h.of_elsewhere (d.elsewhere_setStation c _) (by simpa using h.failures) (by simpa using h.pending) rfl).toFaulted

theorem Device.stationsLaw_reprobeOutcome (o : LinkOutcome) (h : d.stationsLaw) (ho : d.OpenAt c) :
    (d.reprobeOutcome c o).stationsLaw := by
  unfold Device.reprobeOutcome
  split
  · exact h
  · split
    · simp only; split
      · exact (ho.recordIdentity _).toFaulted
      · split
        · split
          · exact Device.stationsLaw_askLoading _ (ho.toLoading true true (by omega)) (by simp [Station.toLoading])
          · split
            · exact Device.stationsLaw_askLoading true (ho.toLoading true (d.station c).restarted (by omega)) (by simp [Station.toLoading])
            · exact ho.toActive
        · exact (ho.recordIdentity _).takeSeat _ _
    · exact h

theorem Device.stationsLaw_confirmOutcome (o : LinkOutcome) (h : d.stationsLaw) (hs : (d.station c).state = .loading) :
    (d.confirmOutcome c o).stationsLaw := by
  have ho := d.openAt (c := c) h (by simp [hs])
  unfold Device.confirmOutcome
  split
  · exact ho.toAbsent
  · split
    · simp only; split
      · exact (ho.recordIdentity _).toFaulted
      · split
        · exact Device.stationsLaw_askLoading _ h hs
        · exact (ho.recordIdentity _).takeSeat _ _
    · exact ho.toAbsent

theorem Device.stationsLaw_loadingOutcome (cmd : LinkCommand) (o : LinkOutcome) (h : d.stationsLaw)
    (hs : (d.station c).state = .loading) : (d.loadingOutcome c cmd o).stationsLaw := by
  have ho := d.openAt (c := c) h (by simp [hs])
  unfold Device.loadingOutcome
  split
  · exact Device.stationsLaw_confirmOutcome o h hs
  · split
    · exact ho.toAbsent
    · split
      · exact Device.stationsLaw_reload _ ho.failures ho
      · split
        · split
          · rename_i seat
            refine Device.stationsLaw_continueLoading ?_ (by simpa using hs)
            obtain ⟨hfail, -, -, -, -, -, -, htest, -, -⟩ := h c
            exact Device.stationsLaw_of_elsewhere (fun k _ => h k) (d.elsewhere_setStation c _) (by
              simp [Device.stationLaw, hs, hfail, htest, ho.pending, ho.due, ho.scan])
          · exact Device.stationsLaw_continueLoading h hs
        · exact ho.toAbsent

theorem Device.stationsLaw_testingOutcome (o : LinkOutcome) (h : d.stationsLaw) (hs : (d.station c).state = .testing) :
    (d.testingOutcome c o).stationsLaw := by
  have ho := d.openAt (c := c) h (by simp [hs])
  unfold Device.testingOutcome
  repeat' split
  all_goals first
    | with_reducible exact h
    | with_reducible exact ho.toFaulted
    | with_reducible exact ho.toAbsent
    | with_reducible exact ho.toActive
    | with_reducible exact Device.stationsLaw_reload _ ho.failures ho
    | with_reducible exact Device.stationsLaw_testNext _ _ h hs
    | exact Device.stationsLaw_testNext (d := d.mapPlaces _) _ _ h hs

theorem Device.stationsLaw_stationOutcome (cmd : LinkCommand) (o : LinkOutcome) (h : d.stationsLaw) :
    (d.stationOutcome c cmd o).stationsLaw := by
  unfold Device.stationOutcome
  split
  · rename_i hs; exact (d.openAt h (by simp [hs])).probeOutcome o
  · rename_i hs; exact (d.openAt h (by simp [hs])).probeOutcome o
  · rename_i hs; exact Device.stationsLaw_reprobeOutcome o h (d.openAt h (by simp [hs]))
  · rename_i hs; exact Device.stationsLaw_loadingOutcome cmd o h hs
  · rename_i hs; exact Device.stationsLaw_testingOutcome o h hs
  · exact h
  · exact h

/-! ## The whole end of an exchange -/

/-- An ABSENT station that is probed becomes PROBING (R23, R39). -/
theorem Device.stationsLaw_askProbe (k : Code) (h : d.stationsLaw) : (d.askProbe k).stationsLaw := by
  unfold Device.askProbe; simp only
  split
  · rename_i hs
    have ho := d.openAt (c := k) h (by simp [hs])
    obtain ⟨-, habsent, -⟩ := h k
    exact Device.stationsLaw_of_elsewhere ho.others (d.elsewhere_setStation k _) (by
      simp [Device.stationLaw, habsent hs, ho.due, ho.scan, Station.absent])
  · exact h

theorem Device.stationsLaw_startupNext (h : d.stationsLaw) : (d.startupNext c).stationsLaw := by
  unfold Device.startupNext
  split
  · simp only; split
    · exact Device.stationsLaw_askProbe _ h
    · exact h
  · exact h

theorem Device.stationsLaw_lateExpiry (h : d.stationsLaw) : (d.lateExpiry c).stationsLaw := by
  unfold Device.lateExpiry; split
  · rename_i hs; exact (d.openAt h (by simp [hs.1])).toAbsent
  · exact h

theorem Device.stationsLaw_deliver (x : Exchange) (o : LinkOutcome) (h : d.stationsLaw) : (d.deliver x o).stationsLaw := by
  unfold Device.deliver
  split
  · split
    · rename_i hs
      obtain ⟨-, -, -, -, -, -, -, -, -, hscan⟩ := h x.station
      exact Device.stationsLaw_scanOutcome _ _ h (hscan hs)
    · exact h
  · exact Device.stationsLaw_stationOutcome _ _ (Device.stationsLaw_startupNext h)
  · split
    · exact Device.stationsLaw_storeOutcome _ _ h
    · exact h

theorem Device.stationsLaw_handed (x : Exchange) (o : LinkOutcome) (h : d.stationsLaw) : (d.handed x o).stationsLaw := by
  unfold Device.handed; split
  · exact Device.stationsLaw_lateExpiry (Device.stationsLaw_deliver x o h)
  · exact Device.stationsLaw_deliver x o h

theorem Device.stationsLaw_heard (x : Exchange) (o : LinkOutcome) (h : d.stationsLaw) : (d.heard x o).stationsLaw := by
  rw [Device.heard_eq]
  exact Device.stationsLaw_setExcitation _ h

end

end Sys2Proof.Machine
end

section
/-! SUPPORT. The place list and the station table (R42 to R44): what the list reads of the stations, and when a rebuild changes
nothing. -/

namespace Sys2Proof.Machine

/-! ## What the list reads -/

/-- The list reads a station's seats: whether it is listed, its serial and its place count. -/
abbrev Station.sameSeats (s t : Station) : Prop := t.listed = s.listed ∧ t.serial = s.serial ∧ t.count = s.count

section
variable {d e : Device} {c : Code}

theorem Device.offered_of_seats (h : (d.station c).sameSeats (e.station c)) : e.offered c = d.offered c := by
  obtain ⟨hlisted, hserial, hcount⟩ := h
  unfold Device.offered Station.identities
  rw [hlisted, hserial, hcount]

theorem Device.offered_of_elsewhere (he : Device.Elsewhere c d e) (hc : (d.station c).sameSeats (e.station c)) (k : Code) :
    e.offered k = d.offered k := by
  by_cases hk : k = c
  · subst hk; exact Device.offered_of_seats hc
  · exact Device.offered_of_seats (by rw [(he k hk).1]; exact ⟨rfl, rfl, rfl⟩)

theorem Device.newList_of_offered (h : ∀ k, e.offered k = d.offered k) : e.newList = d.newList := by
  unfold Device.newList; rw [funext h]

theorem Device.leftOut_of_offered (h : ∀ k, e.offered k = d.offered k) (list : List Identity) : e.leftOut list = d.leftOut list := by
  unfold Device.leftOut; simp only [h]

theorem Device.rebuild_offered (d : Device) (k : Code) : d.rebuild.offered k = d.offered k :=
  Device.offered_of_seats (by rw [d.rebuild_station_eq k]; exact ⟨rfl, rfl, rfl⟩)

/-! ## A rebuild of a list that stands -/

/-- A rebuild of the list that the station table gives changes the two global faults alone (R43, R45). -/
theorem Device.rebuild_of_listed (h : d.places.map Place.id = d.newList) :
    d.rebuild.places = d.places ∧ (∀ k, d.rebuild.station k = d.station k) ∧ d.rebuild.ss = d.ss ∧ d.rebuild.st = d.st := by
  unfold Device.rebuild
  simp only [← h, if_true, Device.setGlobal_places, Device.setGlobal_station, Device.setGlobal_ss, Device.setGlobal_st, implies_true,
    and_self]

/-- An identity in the list is offered by its station, which is listed. -/
theorem Device.listed_of_place (h : d.places.map Place.id = d.newList) {p : Place} (hp : p ∈ d.places) :
    (d.station p.id.station).listed = true := by
  have hid : p.id ∈ d.newList := by rw [← h]; exact List.mem_map_of_mem hp
  obtain ⟨k, -, hk⟩ := mem_fillList _ _ _ _ hid
  have hs : p.id.station = k := d.offered_station k p.id hk
  subst hs
  by_contra hn
  simp [Device.offered, hn] at hk

/-- The work on the places keeps the identities of the list. -/
theorem Device.Goes.ids (h : d.Goes (Place.heldBy d.env) e) : e.places.map Place.id = d.places.map Place.id := by
  have key : ∀ {ps qs : List Place}, List.Forall₂ (Place.heldBy d.env) ps qs → qs.map Place.id = ps.map Place.id := by
    intro ps qs hf
    induction hf with
    | nil => rfl
    | cons hpq _ ih => rw [List.map_cons, List.map_cons, ih, hpq.1]
  exact key h.places

end

/-! ## The seats after an event of one station -/

section
variable {d : Device} {c : Code}

theorem Station.listed_active {s : Station} (h : s.state = .active) : s.listed = true := by simp [Station.listed, h]

theorem Device.seats_takeUpTest : (d.station c).sameSeats ((d.takeUpTest c).station c) := by
  unfold Device.takeUpTest; split
  · rename_i h
    refine ⟨?_, ?_, ?_⟩
    · rw [Station.listed_active h.1]; simp [Device.beginTest, Station.listed]
    · simp [Device.beginTest]
    · simp [Device.beginTest]
  · exact ⟨rfl, rfl, rfl⟩

theorem Device.seats_scanFailed (ha : (d.station c).state = .active) : (d.station c).sameSeats ((d.scanFailed c).station c) := by
  unfold Device.scanFailed; simp only; split
  · refine ⟨?_, ?_, ?_⟩
    · rw [Station.listed_active ha]; simp [Device.toSilent, Device.abortNode, Station.listed]
    · simp [Device.toSilent, Device.abortNode]
    · simp [Device.toSilent, Device.abortNode]
  · obtain ⟨hlisted, hserial, hcount⟩ := Device.seats_takeUpTest (c := c)
      (d := (d.endScan c).setStation c { d.station c with failures := (d.station c).failures + 1 })
    refine ⟨hlisted.trans ?_, hserial.trans ?_, hcount.trans ?_⟩
    · simp [Station.listed]
    · simp
    · simp

/-- A listed station stays listed through a node restart, loading again with its places retained (R22, R32). -/
theorem Device.seats_nodeRestart (hl : (d.station c).listed = true) : (d.station c).sameSeats ((d.nodeRestart c).station c) := by
  refine ⟨?_, ?_, ?_⟩
  · rw [hl]; simp [Device.nodeRestart, Device.reload, Device.abortNode, Station.toLoading, Station.listed]
  · simp [Device.nodeRestart, Device.reload, Device.abortNode, Station.toLoading]
  · simp [Device.nodeRestart, Device.reload, Device.abortNode, Station.toLoading]

end

end Sys2Proof.Machine
end

section
/-! PROOF. Every step keeps the place list of the station table (O52). -/

namespace Sys2Proof.Machine

/-! ## The two laws together -/

/-- The two laws of O52, but for what the first gives of the second (`Device.listLaw_of_mapLaw`). -/
abbrev Device.tableLaw (d : Device) : Prop := d.mapLaw ∧ d.accepted.length ≤ Config.maxPlaces

theorem Device.places_length_of_mapLaw {d : Device} (h : d.mapLaw) : d.places.length ≤ Config.maxPlaces := by
  obtain ⟨-, hids, -, -⟩ := h
  rw [← List.length_map (f := Place.id), hids]; exact d.newList_length

theorem Device.listLaw_of_mapLaw {d : Device} (h : d.mapLaw) (ha : d.accepted.length ≤ Config.maxPlaces) : d.listLaw := by
  have hlength := Device.places_length_of_mapLaw h
  obtain ⟨-, hids, -, -⟩ := h
  refine ⟨hlength, ?_, ha⟩
  have hasc := d.newList_ascending
  rw [← hids, List.pairwise_map] at hasc
  exact hasc

/-- The global faults that follow the station table. -/
abbrev GlobalFault.ofTable (k : GlobalFault) : Prop := k = .mapOverflow ∨ k = .badStation

/-- The law of the list moves to a device whose stations keep their seats. -/
theorem Device.mapLaw_of_offered {d e : Device} (h : d.mapLaw) (hst : e.stationsLaw) (hoffered : ∀ k, e.offered k = d.offered k)
    (hfaulted : ∀ k, (e.station k).state = .faulted ↔ (d.station k).state = .faulted)
    (hids : e.places.map Place.id = d.places.map Place.id)
    (hlive : ∀ k : GlobalFault, k.ofTable → e.live.getLsbD k.bit = d.live.getLsbD k.bit) : e.mapLaw := by
  obtain ⟨-, hlist, hover, hbad⟩ := h
  refine ⟨hst, ?_, ?_, ?_⟩
  · rw [hids, Device.newList_of_offered hoffered, hlist]
  · rw [hlive _ (.inl rfl), Device.newList_of_offered hoffered, Device.leftOut_of_offered hoffered, hover]
  · rw [hlive _ (.inr rfl), hbad]
    exact exists_congr fun k => (hfaulted k).symm

/-! ## After a rebuild the law of the list holds (R43) -/

theorem Device.stationsLaw_rebuild {d : Device} (h : d.stationsLaw) : d.rebuild.stationsLaw := by
  intro c
  by_cases hl : (d.station c).listed = true
  · have hstate : (d.station c).state ≠ .absent ∧ (d.station c).state ≠ .probing := by
      constructor <;> (intro hs; simp [Station.listed, hs] at hl)
    obtain ⟨v, hv⟩ : ∃ v, d.rebuild.station c = { d.station c with values := v } := ⟨_, d.rebuild_station_eq c⟩
    obtain ⟨hfail, -, -, hrest⟩ := h c
    unfold Device.stationLaw
    rw [hv, d.rebuild_record c]
    exact ⟨hfail, fun hs => absurd hs hstate.1, fun hs => absurd hs hstate.2, hrest⟩
  · exact Device.stationLaw_of_eq (h c) (d.rebuild_station_unlisted c (Bool.eq_false_iff.2 hl)) (by simp) (by simp)

theorem Device.mapLaw_rebuild {d : Device} (h : d.stationsLaw) : d.rebuild.mapLaw := by
  have hstate : ∀ k, (d.rebuild.station k).state = (d.station k).state := fun k => by rw [d.rebuild_station_eq k]
  refine ⟨Device.stationsLaw_rebuild h, ?_, ?_, ?_⟩
  · rw [Device.rebuild_ids, Device.newList_of_offered d.rebuild_offered]
  · rw [Device.rebuild_live, Device.newList_of_offered d.rebuild_offered, Device.leftOut_of_offered d.rebuild_offered]
  · rw [Device.rebuild_live]
    simp [hstate]

/-! ## Events that leave the station table and the list -/

/-- From `d` to `e` the station records, due times, scans in progress, identities, the faults of the station table and the accepted map
stay. -/
structure Device.LeavesTable (d e : Device) : Prop where
  station  : ∀ c, e.station c = d.station c
  due      : ∀ c, (e.record c).due = (d.record c).due
  scan     : ∀ c, (e.record c).scan.isSome = (d.record c).scan.isSome
  ids      : e.places.map Place.id = d.places.map Place.id
  live     : ∀ k : GlobalFault, k.ofTable → e.live.getLsbD k.bit = d.live.getLsbD k.bit
  accepted : e.accepted = d.accepted

theorem Device.LeavesTable.trans {d e f : Device} (h : d.LeavesTable e) (h' : e.LeavesTable f) : d.LeavesTable f :=
  ⟨fun c => (h'.station c).trans (h.station c), fun c => (h'.due c).trans (h.due c), fun c => (h'.scan c).trans (h.scan c),
    h'.ids.trans h.ids, fun k hk => (h'.live k hk).trans (h.live k hk), h'.accepted.trans h.accepted⟩

theorem Device.LeavesTable.mapLaw {d e : Device} (h : d.LeavesTable e) (hd : d.mapLaw) : e.mapLaw :=
  Device.mapLaw_of_offered hd (fun c => Device.stationLaw_of_eq (hd.1 c) (h.station c) (h.due c) (h.scan c))
    (fun k => Device.offered_of_seats (by rw [h.station k]; exact ⟨rfl, rfl, rfl⟩)) (fun k => by rw [h.station k]) h.ids h.live

theorem Device.LeavesTable.tableLaw {d e : Device} (h : d.LeavesTable e) (hd : d.tableLaw) : e.tableLaw :=
  ⟨h.mapLaw hd.1, by rw [h.accepted]; exact hd.2⟩

/-- Blocks other than ST and SS may have changed, and the places but for their identities. -/
theorem Device.leavesTable_rest {d e : Device} (h1 : e.st.stations = d.st.stations) (h2 : e.ss.records = d.ss.records)
    (h3 : e.places.map Place.id = d.places.map Place.id) (h4 : e.live = d.live) (h5 : e.accepted = d.accepted) : d.LeavesTable e :=
  ⟨fun c => by unfold Device.station; rw [h1], fun c => by unfold Device.record; rw [h2], fun c => by unfold Device.record; rw [h2],
    h3, fun k _ => by rw [h4], h5⟩

theorem Device.tableLaw_rest {d e : Device} (hd : d.tableLaw) (h1 : e.st.stations = d.st.stations) (h2 : e.ss.records = d.ss.records)
    (h3 : e.places.map Place.id = d.places.map Place.id) (h4 : e.live = d.live) (h5 : e.accepted = d.accepted) : e.tableLaw :=
  (leavesTable_rest h1 h2 h3 h4 h5).tableLaw hd

theorem Device.leavesTable_atMoment (d : Device) (m : Moment) : d.LeavesTable (d.atMoment m) :=
  leavesTable_rest (by simp) (by simp) (by simp) (by simp) (by simp)

theorem map_ids_of {f : Place → Place} (hf : ∀ p, (f p).id = p.id) (ps : List Place) : (ps.map f).map Place.id = ps.map Place.id := by
  rw [List.map_map]; exact List.map_congr_left fun p _ => hf p

theorem modify_ids_of {f : Place → Place} (hf : ∀ p, (f p).id = p.id) (n : Nat) (ps : List Place) :
    (ps.modify n f).map Place.id = ps.map Place.id := by
  refine List.ext_getElem? fun i => ?_
  rw [List.getElem?_map, List.getElem?_map, List.getElem?_modify]
  cases ps[i]? with
  | none => rfl
  | some p =>
    rw [Option.map_eq_map, Option.map_some, Option.map_some, Option.map_some]
    split
    · rw [hf p]
    · rfl

theorem Device.leavesTable_mapPlaces (d : Device) {f : Place → Place} (hf : ∀ p, (f p).id = p.id) : d.LeavesTable (d.mapPlaces f) :=
  leavesTable_rest rfl rfl (map_ids_of hf _) rfl rfl

theorem Device.leavesTable_modifyPlace (d : Device) (n : Nat) {f : Place → Place} (hf : ∀ p, (f p).id = p.id) :
    d.LeavesTable (d.modifyPlace n f) :=
  leavesTable_rest rfl rfl (modify_ids_of hf n _) rfl rfl

theorem Device.leavesTable_setGlobal (d : Device) (k : GlobalFault) (on : Bool) (hk : ¬ k.ofTable) : d.LeavesTable (d.setGlobal k on) := by
  refine ⟨by simp, by simp, by simp, by simp, fun j hj => ?_, by simp⟩
  rw [Device.live_setGlobal, if_neg]
  rintro rfl; exact hk hj

theorem Device.leavesTable_setExcitation (d : Device) (c : Code) (e : Excitation) : d.LeavesTable (d.setExcitation c e) := by
  refine ⟨fun _ => rfl, fun k => ?_, fun k => ?_, rfl, fun _ _ => rfl, rfl⟩ <;>
    (simp only [Device.setExcitation, Device.setRecord_record]; split <;> simp_all)

theorem Device.leavesTable_setScanStep (d : Device) (c : Code) (step : ScanStep) : d.LeavesTable (d.setScanStep c step) := by
  refine ⟨fun _ => rfl, fun k => ?_, fun k => ?_, rfl, fun _ _ => rfl, rfl⟩ <;>
    (simp only [Device.setScanStep_record]; split <;> simp_all)

theorem Device.leavesTable_launchRetry (d : Device) (x : Exchange) : d.LeavesTable (d.launchRetry x) := by
  unfold Device.launchRetry; simp only; split <;> exact leavesTable_rest rfl rfl rfl rfl rfl

theorem Device.leavesTable_retry (d : Device) (x : Exchange) (k : FailKind) : d.LeavesTable (d.retry x k) := by
  unfold Device.retry; simp only; split
  · exact leavesTable_rest rfl rfl rfl rfl rfl
  · exact d.leavesTable_launchRetry _

theorem Device.leavesTable_completeStartup (d : Device) : d.LeavesTable d.completeStartup := by
  unfold Device.completeStartup; simp only; split
  · exact leavesTable_rest rfl rfl (map_ids_of (fun p => (Place.agrees_modeChanged _ _ p).id_eq) _) rfl rfl
  · exact leavesTable_rest rfl rfl rfl rfl rfl

/-! ## Place operations keep the identity -/

section
variable (e : Env) (p : Place)

@[simp] theorem Place.tick_id : (p.tick e).id = p.id := by
  unfold Place.tick Place.tickTimer; simp only; repeat' split
  all_goals rfl
@[simp] theorem Place.loseFreshness_id : (p.loseFreshness e).id = p.id := by simp [Place.loseFreshness]
@[simp] theorem Place.writePolicy_id (v : Word) : (p.writePolicy e v).id = p.id := by
  unfold Place.writePolicy; simp only; repeat' split
  all_goals simp
@[simp] theorem Place.startCal_id (forced : Bool) : (p.startCal e forced).id = p.id := by simp [Place.startCal]
@[simp] theorem Place.acceptedMap_id (e0 : Env) : (p.acceptedMap e0 e).id = p.id := by
  unfold Place.acceptedMap; split <;> simp
@[simp] theorem Place.abortCal_id (st : CalEnd) : (p.abortCal e st).id = p.id := ((held_work e).abortCal st p).1
@[simp] theorem Place.freeze_id (e0 : Env) : (p.freeze e0 e).id = p.id := by simp [Place.freeze]
@[simp] theorem Place.unfreeze_id (e0 : Env) : (p.unfreeze e0 e).id = p.id := by simp [Place.unfreeze]
@[simp] theorem Place.tripFlag_id (before after : Bool) : (p.tripFlag before after).id = p.id := by
  unfold Place.tripFlag; repeat' split
  all_goals rfl

end

theorem clearRun_ids (port : Port) (start count n : Nat) (ps : List Place) :
    (clearRun port start count n ps).map Place.id = ps.map Place.id := by
  induction ps generalizing n with
  | nil => rfl
  | cons p ps ih => rw [clearRun, List.map_cons, List.map_cons, ih]; split <;> rfl

theorem Device.leavesTable_writeParam (d : Device) (id v : Nat) : d.LeavesTable (d.writeParam id v) := by
  have hw : d.LeavesTable { d with params := d.params.write id v } := leavesTable_rest rfl rfl rfl rfl rfl
  unfold Device.writeParam; simp only; split
  · exact hw.trans (leavesTable_mapPlaces _ fun p => by simp)
  · exact hw

theorem Device.leavesTable_lapse (d : Device) : d.LeavesTable d.lapse := by
  have hv : d.LeavesTable { d with vehicle := { d.vehicle with speed := none, lapseStart := none, speedZero := none } } :=
    leavesTable_rest rfl rfl rfl rfl rfl
  exact (hv.trans (leavesTable_mapPlaces _ fun p => by simp)).trans (leavesTable_setGlobal _ .vehicleLapsed true (by decide))

theorem Device.leavesTable_supply (d : Device) (ignition : Bool) (speed : Nat) : d.LeavesTable (d.supply ignition speed) := by
  have hv : d.LeavesTable { d with vehicle := d.vehicle.supplied ignition speed d.stamp } := leavesTable_rest rfl rfl rfl rfl rfl
  exact (hv.trans (leavesTable_mapPlaces _ fun p => by simp)).trans (leavesTable_setGlobal _ .vehicleLapsed false (by decide))

theorem Device.leavesTable_freeze (d : Device) : d.LeavesTable d.freeze :=
  leavesTable_rest rfl rfl (map_ids_of (fun p => by simp) _) rfl rfl

theorem Device.leavesTable_unfreeze (d : Device) : d.LeavesTable d.unfreeze :=
  leavesTable_rest rfl rfl (map_ids_of (fun p => by simp) _) rfl rfl

/-! ## Events of the stations and the scans -/

/-- The end of an exchange rebuilds the list, so the law of the list needs the law of the stations alone. -/
theorem Device.mapLaw_settled {d : Device} (h : d.stationsLaw) : d.settled.mapLaw := by
  unfold Device.settled; split
  · exact (leavesTable_completeStartup _).mapLaw (Device.mapLaw_rebuild h)
  · exact Device.mapLaw_rebuild h

theorem Device.tableLaw_endExchange {d : Device} (x : Exchange) (o : LinkOutcome) (h : d.tableLaw) : (d.endExchange x o).tableLaw := by
  rw [Device.endExchange_eq]
  refine ⟨Device.mapLaw_settled (Device.stationsLaw_handed x o (Device.stationsLaw_heard x o h.1.1)), ?_⟩
  rw [Device.settled_accepted, Device.handed_accepted, Device.heard_accepted]
  exact h.2

theorem Device.tableLaw_attemptFailed {d : Device} (x : Exchange) (k : FailKind) (h : d.tableLaw) : (d.attemptFailed x k).tableLaw := by
  unfold Device.attemptFailed; split
  · exact (d.leavesTable_retry x k).tableLaw h
  · exact Device.tableLaw_endExchange x _ h

theorem Device.tableLaw_takeChar {d : Device} (x : Exchange) (ch : RxChar) (h : d.tableLaw) : (d.takeChar x ch).tableLaw := by
  unfold Device.takeChar; simp only; split
  · exact Device.tableLaw_rest h rfl rfl rfl rfl rfl
  · exact Device.tableLaw_rest h rfl rfl rfl rfl rfl
  · exact Device.tableLaw_attemptFailed _ _ h
  · exact Device.tableLaw_endExchange x _ h

/-- The least of a list of stations is one of them. -/
theorem mem_of_leastBy {key : Code → Nat} {l : List Code} {c : Code} (h : leastBy key l = some c) : c ∈ l := by
  induction l generalizing c with
  | nil => cases h
  | cons a l ih =>
    unfold leastBy at h
    split at h
    · cases h; exact List.mem_cons_self
    · rename_i k hk
      split at h
      · cases h; exact List.mem_cons_self
      · cases h; exact List.mem_cons_of_mem _ (ih hk)

/-- The arbiter begins a scan of an ACTIVE station alone (R62, R69). -/
theorem Device.choose_scan_active {d : Device} {c : Code} (h : d.choose = some (.scan c)) : (d.station c).state = .active := by
  unfold Device.choose at h
  split at h
  · obtain ⟨cmd, -, hc⟩ := Option.map_eq_some_iff.1 h; cases hc
  · split at h
    · cases h
    · obtain ⟨k, hk, hc⟩ := Option.map_eq_some_iff.1 h
      cases hc
      have he := (List.mem_filter.1 (mem_of_leastBy hk)).2
      simp only [Device.scanEligible, Device.isDue, Bool.and_eq_true, beq_iff_eq, and_assoc] at he
      exact he.1

theorem Device.tableLaw_grant {d : Device} {choice : Choice} (hc : d.choose = some choice) (h : d.tableLaw) :
    (d.grant choice).tableLaw := by
  cases choice with
  | step c cmd => exact Device.tableLaw_rest h rfl rfl rfl rfl rfl
  | waiting r => exact Device.tableLaw_rest h rfl rfl rfl rfl rfl
  | scan c =>
    have ha := Device.choose_scan_active hc
    obtain ⟨hmap, haccepted⟩ := h
    refine ⟨Device.mapLaw_of_offered hmap (fun k => ?_) (fun _ => rfl) (fun _ => Iff.rfl) rfl (fun _ _ => rfl), haccepted⟩
    by_cases hk : k = c
    · subst hk
      obtain ⟨h1, h2, h3, h4, h5, h6, h7, h8, -, -⟩ := hmap.1 k
      refine ⟨h1, h2, h3, h4, h5, h6, h7, h8, ?_, fun _ => ha⟩
      show ((d.startScan k).record k).due.isSome = true ↔ (d.station k).state = .active
      rw [Device.startScan_record, if_pos rfl]
      exact iff_of_true rfl ha
    · have hr : (d.startScan c).record k = d.record k := by rw [Device.startScan_record, if_neg hk]
      exact Device.stationLaw_of_eq (hmap.1 k) rfl (congrArg ScanRecord.due hr) (congrArg (fun r => r.scan.isSome) hr)

/-- An event of one station that keeps its seats, and that is not about FAULTED, keeps the law. -/
theorem Device.tableLaw_of_elsewhere {d e : Device} {c : Code} (h : d.tableLaw) (he : Device.Elsewhere c d e) (hc : e.stationLaw c)
    (hseats : (d.station c).sameSeats (e.station c)) (hfaulted : (e.station c).state = .faulted ↔ (d.station c).state = .faulted)
    (hids : e.places.map Place.id = d.places.map Place.id) (hlive : e.live = d.live) (haccepted : e.accepted = d.accepted) :
    e.tableLaw := by
  obtain ⟨hmap, hacc⟩ := h
  refine ⟨Device.mapLaw_of_offered hmap (Device.stationsLaw_of_elsewhere (fun k _ => hmap.1 k) he hc)
    (Device.offered_of_elsewhere he hseats) (fun k => ?_) hids (fun k _ => by rw [hlive]), by rw [haccepted]; exact hacc⟩
  by_cases hk : k = c
  · subst hk; exact hfaulted
  · rw [(he k hk).1]

/-- A listed station is not FAULTED, and stays so while it keeps its seats. -/
theorem Station.not_faulted_of_listed {s : Station} (h : s.listed = true) : s.state ≠ .faulted := fun hs => by
  simp [Station.listed, hs] at h

theorem Device.faulted_iff_of_active {d e : Device} {c : Code} (ha : (d.station c).state = .active)
    (hseats : (d.station c).sameSeats (e.station c)) : (e.station c).state = .faulted ↔ (d.station c).state = .faulted :=
  iff_of_false (Station.not_faulted_of_listed (by rw [hseats.1]; exact Station.listed_active ha)) (by rw [ha]; exact fun h => nomatch h)

theorem Device.tableLaw_scanFailed {d : Device} (c : Code) (h : d.tableLaw) (ha : (d.station c).state = .active) :
    (d.scanFailed c).tableLaw := by
  have hg := Device.goes_scanFailed (held_work d.env) c
  have hseats := Device.seats_scanFailed ha
  exact Device.tableLaw_of_elsewhere h (d.elsewhere_scanFailed c) (Device.stationsLaw_scanFailed h.1.1 ha c) hseats
    (Device.faulted_iff_of_active ha hseats) hg.ids (congrArg Device.live hg.still :) (congrArg Device.accepted hg.still :)

theorem Device.tableLaw_takeUpTest {d : Device} (c : Code) (h : d.tableLaw) (ha : (d.station c).state = .active) :
    (d.takeUpTest c).tableLaw := by
  have hg := Device.goes_takeUpTest (held_work d.env) c
  have hseats := Device.seats_takeUpTest (d := d) (c := c)
  exact Device.tableLaw_of_elsewhere h (d.elsewhere_takeUpTest c) (Device.stationsLaw_takeUpTest h.1.1 c) hseats
    (Device.faulted_iff_of_active ha hseats) hg.ids (congrArg Device.live hg.still :) (congrArg Device.accepted hg.still :)

/-- A LINK_TEST is left pending on an ACTIVE station (R37). -/
theorem Device.tableLaw_testPending {d : Device} (c : Code) (h : d.tableLaw) (ha : (d.station c).state = .active) :
    (d.setStation c { d.station c with testPending := true }).tableLaw := by
  obtain ⟨hfail, hret, hres, htest, hdue⟩ := (h.1.1 c).of_active ha
  refine Device.tableLaw_of_elsewhere h (d.elsewhere_setStation c _) ?_ ?_ ?_ rfl rfl rfl
  · simp [Device.stationLaw, ha, hfail, hret, hres, htest, hdue]
  · simp [Station.sameSeats, Station.listed]
  · simp

theorem Device.tableLaw_askProbe {d : Device} (c : Code) (h : d.tableLaw) : (d.askProbe c).tableLaw := by
  have hlaw := Device.stationsLaw_askProbe c h.1.1 c
  unfold Device.askProbe at hlaw ⊢
  simp only at hlaw ⊢
  split at hlaw
  · rename_i hs
    rw [if_pos hs]
    refine Device.tableLaw_of_elsewhere h (d.elsewhere_setStation c _) hlaw ?_ ?_ rfl rfl rfl
    · simp [Station.sameSeats, Station.listed, hs]
    · simp [hs]
  · rename_i hs
    rw [if_neg hs]
    exact Device.tableLaw_rest h rfl rfl rfl rfl rfl

theorem Device.tableLaw_probeMark {d : Device} (t : Nat) (h : d.tableLaw) : (d.probeMark t).tableLaw := by
  unfold Device.probeMark; simp only
  repeat' split
  · exact Device.tableLaw_rest h rfl rfl rfl rfl rfl
  · exact Device.tableLaw_askProbe _ (Device.tableLaw_rest h rfl rfl rfl rfl rfl)
  · exact Device.tableLaw_rest h rfl rfl rfl rfl rfl

theorem Device.tableLaw_reProbeMark {d : Device} (c : Code) (t : Nat) (hs : (d.station c).state = .silent) (h : d.tableLaw) :
    (d.reProbeMark c t).tableLaw := by
  have hmarked : (d.setStation c { d.station c with nextReprobe := some (t + 100) }).tableLaw := by
    have ho := d.openAt (c := c) h.1.1 (by simp [hs])
    obtain ⟨-, -, -, hsilent, hret, hres, -, htest, -, -⟩ := h.1.1 c
    obtain ⟨hfail, hsince, -⟩ := hsilent hs
    rw [hs] at hret hres htest
    refine Device.tableLaw_of_elsewhere h (d.elsewhere_setStation c _) ?_ ?_ ?_ rfl rfl rfl
    · simp [Device.stationLaw, hs, hfail, hsince, ho.pending, ho.due, ho.scan] at hret hres htest ⊢
      exact ⟨hret, hres, htest⟩
    · simp [Station.sameSeats, Station.listed]
    · simp
  unfold Device.reProbeMark; simp only; split
  · exact hmarked
  · exact Device.tableLaw_rest hmarked rfl rfl rfl rfl rfl

/-- The accepted map becomes the list, which holds at most 16 places (R42, R50). -/
theorem Device.tableLaw_acceptMap {d : Device} (h : d.tableLaw) : d.acceptMap.tableLaw := by
  have hlength := Device.places_length_of_mapLaw h.1
  have hmap : d.acceptMap.mapLaw := by
    refine Device.mapLaw_of_offered h.1 h.1.1 (fun _ => rfl) (fun _ => Iff.rfl) ?_ (fun _ _ => rfl)
    exact map_ids_of (Place.acceptedMap_id _ · _) _
  exact ⟨hmap, by show (d.places.map Place.id).length ≤ _; rw [List.length_map]; exact hlength⟩

/-- A scan whose SAMPLE has not begun is a scan in progress, of an ACTIVE station (R67, R68). -/
theorem Device.active_of_sampleNotBegun {d : Device} {c : Code} (h : d.stationsLaw) (hb : d.sampleNotBegun c = true) :
    (d.station c).state = .active := by
  obtain ⟨-, -, -, -, -, -, -, -, -, hscan⟩ := h c
  refine hscan ?_
  unfold Device.sampleNotBegun at hb
  split at hb
  · rename_i sc hsc; rw [hsc]; rfl
  · cases hb

/-! ## Every event -/

theorem Device.Event.tableLaw {d e : Device} {c : Instr} (h : d.Event c e) (hd : d.tableLaw) : e.tableLaw := by
  have hm : ∀ m, (d.atMoment m).tableLaw := fun m => (d.leavesTable_atMoment m).tableLaw hd
  have hmodify : ∀ (m : Moment) (n : Nat) (f : Place → Place), (∀ p, (f p).id = p.id) → ((d.atMoment m).modifyPlace n f).tableLaw :=
    fun m n f hf => (leavesTable_modifyPlace _ n hf).tableLaw (hm m)
  cases h with
  | quiet => exact Device.tableLaw_rest hd rfl rfl rfl rfl rfl
  | grant m choice _ hchoice => exact Device.tableLaw_grant hchoice (hm m)
  | frameSent m x => exact Device.tableLaw_rest (hm m) rfl rfl rfl rfl rfl
  | char m ch x => exact Device.tableLaw_takeChar x ch (hm m)
  | attemptFailed c m x k => exact Device.tableLaw_attemptFailed x k (hm m)
  | heldRetry m x => exact (leavesTable_launchRetry _ x).tableLaw (hm m)
  | settle c => exact (d.leavesTable_setScanStep c _).tableLaw hd
  | selfRelax c t =>
    split
    · rename_i hb
      have ha : (d.station c).state = .active := Device.active_of_sampleNotBegun hd.1.1 hb
      exact Device.tableLaw_scanFailed c ((d.leavesTable_setExcitation c _).tableLaw hd) ha
    · exact (d.leavesTable_setExcitation c _).tableLaw hd
  | unknownExpiry c t => exact (d.leavesTable_setExcitation c _).tableLaw hd
  | recoveryEnd c ends => exact (d.leavesTable_setExcitation c _).tableLaw hd
  | tick => exact Device.tableLaw_rest hd rfl rfl (map_ids_of (Place.tick_id _) _) rfl rfl
  | freshnessLoss n p => exact (d.leavesTable_modifyPlace n (Place.loseFreshness_id _)).tableLaw hd
  | nodeSilent n p => exact (d.leavesTable_modifyPlace n fun p => by simp).tableLaw hd
  | probeMark t => exact Device.tableLaw_probeMark t hd
  | reProbeMark c t _ hs => exact Device.tableLaw_reProbeMark c t hs hd
  | silentExpiry c t _ hs =>
    have ho := d.openAt (c := c) hd.1.1 (by simp [hs])
    exact ⟨Device.mapLaw_rebuild ho.toAbsent, by rw [Device.rebuild_accepted]; exact hd.2⟩
  | startupLimit => exact d.leavesTable_completeStartup.tableLaw hd
  | lapse t => exact d.leavesTable_lapse.tableLaw hd
  | lampTimer n p => exact (d.leavesTable_modifyPlace n fun p => by simp).tableLaw hd
  | chimeTimer n p => exact (d.leavesTable_modifyPlace n fun p => by simp).tableLaw hd
  | trimMark n p t => exact Device.LeavesTable.tableLaw (d.leavesTable_modifyPlace n (by exact fun _ => rfl)) hd
  | noEffect c m => exact hm m
  | placeStatus p f => exact hmodify _ _ _ fun _ => rfl
  | tableRead p f => exact Device.tableLaw_rest (hm _) rfl rfl (clearRun_ids p _ _ 0 _) rfl rfl
  | globalFaultsRead p f => exact hm _
  | placeFaultsRead p f => exact hmodify _ _ _ fun _ => rfl
  | globalFaultsClear p f => exact hm _
  | placeFaultsClear p f => exact hmodify _ _ _ fun _ => rfl
  | setParam p f row => exact (leavesTable_writeParam _ _ _).tableLaw (hm _)
  | setPolicy p f q => exact hmodify _ _ _ (Place.writePolicy_id _ · _)
  | setAttn p f => exact hm _
  | vehicleState f => exact (leavesTable_supply _ _ _).tableLaw (hm _)
  | calZero p f => exact hmodify _ _ _ (Place.startCal_id _ · _)
  | linkTest p f c _ _ ha =>
    have hpending := Device.tableLaw_testPending c (hm f.moment) (by simpa using ha)
    rw [Device.atMoment_station] at hpending
    exact Device.tableLaw_takeUpTest c hpending (by simpa using ha)
  | acceptMap f => exact Device.tableLaw_acceptMap (hm _)
  | freeze f => exact (leavesTable_freeze _).tableLaw (hm _)
  | unfreeze f => exact (leavesTable_unfreeze _).tableLaw (hm _)

/-- Settles O52: the laws hold at reset and every event keeps them (`Device.Event.tableLaw`); those of the list follow from the station
table (`Device.listLaw_of_mapLaw`). -/
theorem everyStepKeepsTheListOfTheStationTable : Obligations.EveryStepKeepsTheListOfTheStationTable := by
  intro s t hmap hlist h
  have hreset : Device.reset.tableLaw := by decide
  obtain ⟨hm, ha⟩ := Device.law_kept_by_step (P := Device.tableLaw) hreset (fun _ h => h) (fun _ _ _ hd he => he.tableLaw hd)
    ⟨hmap, hlist.2.2⟩ h
  exact ⟨hm, Device.listLaw_of_mapLaw hm ha⟩

end Sys2Proof.Machine
end

section
/-! PROOF. The parameters stay in range and consistent, and only four events change the mode (O58). -/

namespace Sys2Proof.Machine

/-! ## A parameter written (R102, R142, R169) -/

theorem paramRow_id {id : Nat} {row : ParamRow} (h : paramRow id = some row) : 1 ≤ id ∧ id ≤ 16 := by
  unfold paramRow at h
  split at h
  case h_17 => cases h
  all_goals omega

/-- A write by id changes the value of that parameter alone; a scan mode is one of 0..2. -/
theorem Params.value_write (q : Params) {id v : Nat} (hid : 1 ≤ id ∧ id ≤ 16) (hv : id = 1 → v ≤ 2) (j : Nat) :
    (q.write id v).value j = if j = id then v else q.value j := by
  by_cases hj : j = id
  · subst hj
    rw [if_pos rfl]
    by_cases h1 : j = 1
    · subst h1
      have h2 := hv rfl
      interval_cases v <;> rfl
    · obtain ⟨hlow, hhigh⟩ := hid
      interval_cases j
      · exact absurd rfl h1
      all_goals rfl
  · rw [if_neg hj]
    obtain ⟨hlow, hhigh⟩ := hid
    unfold Params.value
    split
    all_goals
      interval_cases id
      all_goals try contradiction
      all_goals rfl

theorem Params.loadsConsistent_iff (q : Params) :
    q.loadsConsistent = true ↔ q.value 5 < q.value 4 ∧ q.value 7 < q.value 6 ∧ q.value 4 < q.value 7 ∧ q.value 8 < q.value 9 := by
  simp [Params.loadsConsistent, Params.value, and_assoc]

/-- The law of the parameters in terms of their values by id. -/
theorem Params.law_iff (q : Params) :
    q.law ↔ q.loadsConsistent = true ∧ q.value 13 ≤ q.value 14 ∧
      ∀ (j : Nat) (row : ParamRow), paramRow j = some row → row.low ≤ q.value j ∧ q.value j ≤ row.high := by
  refine and_congr_right fun _ => and_congr_right fun _ => ⟨fun h j row hrow => ?_, fun h i => ?_⟩
  · obtain ⟨hlow, hhigh⟩ := paramRow_id hrow
    have hi := h ⟨j - 1, by omega⟩
    have hj : j - 1 + 1 = j := by omega
    simpa only [hj, hrow, Option.any_some, Bool.and_eq_true, decide_eq_true_eq] using hi
  · obtain ⟨row, hrow⟩ : ∃ row, paramRow (i.val + 1) = some row := by
      fin_cases i <;> exact ⟨_, rfl⟩
    obtain ⟨hlow, hhigh⟩ := h _ row hrow
    rw [hrow, Option.any_some, decide_eq_true hlow, decide_eq_true hhigh]
    rfl

/-- A write that SET_PARAM accepts keeps the law: its own range and set are checked, and it touches no other parameter. -/
theorem Params.law_write {q : Params} {id v : Nat} {row : ParamRow} (h : q.law) (hrow : paramRow id = some row)
    (hlow : row.low ≤ v) (hhigh : v ≤ row.high) (hc : (q.write id v).consistentFor id = true) : (q.write id v).law := by
  obtain ⟨hloads, hspeeds, hranges⟩ := q.law_iff.1 h
  have hmode : id = 1 → v ≤ 2 := by rintro rfl; cases hrow; exact hhigh
  have hvalue := q.value_write (paramRow_id hrow) hmode
  unfold Params.consistentFor at hc
  refine (q.write id v).law_iff.2 ⟨?_, ?_, fun j r hr => ?_⟩
  · by_cases hid : 4 ≤ id ∧ id ≤ 9
    · rwa [if_pos hid] at hc
    · rw [Params.loadsConsistent_iff] at hloads ⊢
      have hne : ∀ j, 4 ≤ j ∧ j ≤ 9 → (q.write id v).value j = q.value j := fun j hj => by
        rw [hvalue, if_neg]; rintro rfl; exact hid hj
      rwa [hne 4 (by omega), hne 5 (by omega), hne 6 (by omega), hne 7 (by omega), hne 8 (by omega), hne 9 (by omega)]
  · by_cases hid : id = 13 ∨ id = 14
    · rw [if_neg (by omega), if_pos hid] at hc
      exact of_decide_eq_true hc
    · rw [hvalue, hvalue, if_neg (by omega), if_neg (by omega)]; exact hspeeds
  · rw [hvalue]
    split
    · rename_i hj; subst hj
      rw [hrow] at hr; cases hr
      exact ⟨hlow, hhigh⟩
    · exact hranges j r hr

/-! ## What the events make of parameters and mode -/

/-- From `d` to `e` the parameters and the mode stay. -/
structure Device.LeavesSettings (d e : Device) : Prop where
  params : e.params = d.params
  mode   : e.mode = d.mode

/-- From `d` to `e` the mode stays, or start-up completes in START_UP (R40). -/
abbrev Device.modeKeptOrStarted (d e : Device) : Prop :=
  e.mode = d.mode ∨ (d.mode = .startUp ∧ e.mode = .run ∧ d.startupDone = false ∧ e.startupDone = true)

section
variable (d : Device)

@[simp] theorem Device.rebuild_startupDone : d.rebuild.startupDone = d.startupDone := by
  simp only [Device.rebuild, Device.setGlobal_startupDone]; split <;> rfl
@[simp] theorem Device.heard_mode (x : Exchange) (o : LinkOutcome) : (d.heard x o).mode = d.mode := by rw [Device.heard_eq]; rfl
@[simp] theorem Device.heard_startupDone (x : Exchange) (o : LinkOutcome) : (d.heard x o).startupDone = d.startupDone := by
  rw [Device.heard_eq]; rfl
@[simp] theorem Device.handed_mode (x : Exchange) (o : LinkOutcome) : (d.handed x o).mode = d.mode :=
  (congrArg Device.mode (d.handed_still x o) :)
@[simp] theorem Device.handed_startupDone (x : Exchange) (o : LinkOutcome) : (d.handed x o).startupDone = d.startupDone :=
  (congrArg Device.startupDone (d.handed_still x o) :)

theorem Device.completeStartup_mode : d.completeStartup.mode = if d.mode = .startUp then .run else d.mode := by
  unfold Device.completeStartup; simp only; split <;> rfl
@[simp] theorem Device.completeStartup_startupDone : d.completeStartup.startupDone = true := by
  unfold Device.completeStartup; simp only; split <;> rfl

theorem Device.modeKeptOrStarted_completeStartup (h : d.startupDone = false) : d.modeKeptOrStarted d.completeStartup := by
  by_cases hm : d.mode = .startUp
  · exact .inr ⟨hm, by rw [Device.completeStartup_mode, if_pos hm], h, d.completeStartup_startupDone⟩
  · exact .inl (by rw [Device.completeStartup_mode, if_neg hm])

theorem Device.modeKeptOrStarted_settled : d.modeKeptOrStarted d.settled := by
  unfold Device.settled; split
  · rename_i hf
    have hdone : d.rebuild.startupDone = false := by
      simp only [Device.startupFinished, Bool.and_eq_true, Bool.not_eq_true'] at hf
      exact hf.1.1
    have h := d.rebuild.modeKeptOrStarted_completeStartup hdone
    rwa [Device.modeKeptOrStarted, d.rebuild_mode, d.rebuild_startupDone] at h
  · exact .inl d.rebuild_mode

theorem Device.settings_endExchange (x : Exchange) (o : LinkOutcome) :
    (d.endExchange x o).params = d.params ∧ d.modeKeptOrStarted (d.endExchange x o) := by
  rw [Device.endExchange_eq]
  have h := ((d.heard x o).handed x o).modeKeptOrStarted_settled
  rw [Device.modeKeptOrStarted, Device.handed_mode, Device.heard_mode, Device.handed_startupDone, Device.heard_startupDone] at h
  exact ⟨by simp, h⟩

theorem Device.settings_retry (x : Exchange) (k : FailKind) : d.LeavesSettings (d.retry x k) := by
  unfold Device.retry; simp only; split
  · exact ⟨rfl, rfl⟩
  · rw [Device.launchRetry_eq]; exact ⟨rfl, rfl⟩

theorem Device.settings_attemptFailed (x : Exchange) (k : FailKind) :
    (d.attemptFailed x k).params = d.params ∧ d.modeKeptOrStarted (d.attemptFailed x k) := by
  unfold Device.attemptFailed; split
  · obtain ⟨hp, hm⟩ := d.settings_retry x k
    exact ⟨hp, .inl hm⟩
  · exact d.settings_endExchange x _

theorem Device.settings_takeChar (x : Exchange) (ch : RxChar) :
    (d.takeChar x ch).params = d.params ∧ d.modeKeptOrStarted (d.takeChar x ch) := by
  unfold Device.takeChar; simp only; split
  · exact ⟨rfl, .inl rfl⟩
  · exact ⟨rfl, .inl rfl⟩
  · exact d.settings_attemptFailed _ _
  · exact d.settings_endExchange x _

end

/-- The work of ST, SS, CU and the places leaves the settings. -/
theorem Device.settings_of_still {d e : Device} (h : e.still = d.still) : d.LeavesSettings e :=
  ⟨(congrArg Device.params h :), (congrArg Device.mode h :)⟩

theorem Device.settings_probeMark (d : Device) (t : Nat) : d.LeavesSettings (d.probeMark t) := by
  unfold Device.probeMark; simp only
  repeat' split
  · exact ⟨rfl, rfl⟩
  · rename_i c _
    obtain ⟨hp, hm⟩ := Device.settings_of_still (Device.goes_askProbe (held_work _) c (d := { d with
      st := { d.st with nextProbe := some (t + 500), lastProbe := some c } })).still
    exact ⟨hp, hm⟩
  · exact ⟨rfl, rfl⟩

theorem Device.settings_reProbeMark (d : Device) (c : Code) (t : Nat) : d.LeavesSettings (d.reProbeMark c t) := by
  unfold Device.reProbeMark; simp only; split <;> exact ⟨rfl, rfl⟩

/-- What an event makes of the mode, by its command (R40, R112, R118). -/
abbrev Device.modeChange (d e : Device) (c : Instr) : Prop :=
  d.modeKeptOrStarted e ∨ (d.mode ≠ .frozen ∧ e.mode = .frozen ∧ ∃ f : Frame, c = .freeze .a f) ∨
    (d.mode = .frozen ∧ e.mode = .run ∧ ∃ f : Frame, c = .unfreeze .a f)

theorem Device.LeavesSettings.law {d e : Device} {c : Instr} (h : d.LeavesSettings e) (hd : d.params.law) :
    e.params.law ∧ d.modeChange e c := ⟨by rw [h.params]; exact hd, .inl (.inl h.mode)⟩

/-- Every event keeps the parameters' law, and changes the mode as O58 says. -/
theorem Device.Event.settings {d e : Device} {c : Instr} (h : d.Event c e) (hd : d.params.law) : e.params.law ∧ d.modeChange e c := by
  have hsimple : ∀ m, d.LeavesSettings (d.atMoment m) := fun m => ⟨by simp, by simp⟩
  have hends : ∀ m e, e.params = (d.atMoment m).params ∧ (d.atMoment m).modeKeptOrStarted e → e.params.law ∧ d.modeChange e c := by
    rintro m e ⟨hp, hm⟩
    rw [Device.modeKeptOrStarted, Device.atMoment_mode, Device.atMoment_startupDone] at hm
    exact ⟨by rw [hp, Device.atMoment_params]; exact hd, .inl hm⟩
  cases h with
  | char m ch x => exact hends m _ (Device.settings_takeChar _ x ch)
  | attemptFailed c m x k => exact hends m _ (Device.settings_attemptFailed _ x k)
  | startupLimit hdone => exact ⟨by simpa using hd, .inl (d.modeKeptOrStarted_completeStartup hdone)⟩
  | setParam p f row hrow _ _ hlow hhigh hc =>
    have hparams : ((d.atMoment f.moment).writeParam f.selector.toNat f.value.toNat).params =
        d.params.write f.selector.toNat f.value.toNat := by
      unfold Device.writeParam; simp only; split <;> simp
    have hmode : ((d.atMoment f.moment).writeParam f.selector.toNat f.value.toNat).mode = d.mode := by
      unfold Device.writeParam; simp only; split <;> simp
    exact ⟨by rw [hparams]; exact Params.law_write hd hrow hlow hhigh hc, .inl (.inl hmode)⟩
  | freeze f hm => exact ⟨by simpa [Device.freeze] using hd, .inr (.inl ⟨hm, rfl, f, rfl⟩)⟩
  | unfreeze f hm => exact ⟨by simpa [Device.unfreeze] using hd, .inr (.inr ⟨hm, rfl, f, rfl⟩)⟩
  | grant m choice => exact Device.LeavesSettings.law (by cases choice <;> exact ⟨(hsimple m).params, (hsimple m).mode⟩) hd
  | heldRetry m x => exact Device.LeavesSettings.law (by rw [Device.launchRetry_eq]; exact ⟨(hsimple m).params, (hsimple m).mode⟩) hd
  | selfRelax c t =>
    refine Device.LeavesSettings.law ?_ hd
    split
    · obtain ⟨hp, hm⟩ := Device.settings_of_still
        (Device.goes_scanFailed (held_work _) c (d := d.setExcitation c (.recovering (t + 22)))).still
      exact ⟨hp, hm⟩
    · exact ⟨rfl, rfl⟩
  | probeMark t => exact (d.settings_probeMark t).law hd
  | reProbeMark c t => exact (d.settings_reProbeMark c t).law hd
  | silentExpiry c t => exact Device.LeavesSettings.law ⟨by rw [Device.rebuild_params]; rfl, by rw [Device.rebuild_mode]; rfl⟩ hd
  | lapse t => exact Device.LeavesSettings.law ⟨by simp [Device.lapse], by simp [Device.lapse]⟩ hd
  | vehicleState f => exact Device.LeavesSettings.law ⟨by simp [Device.supply], by simp [Device.supply]⟩ hd
  | linkTest p f c =>
    obtain ⟨hp, hm⟩ := Device.settings_of_still (Device.goes_takeUpTest (held_work _) c
      (d := (d.atMoment f.moment).setStation c { d.station c with testPending := true })).still
    exact Device.LeavesSettings.law ⟨hp.trans (hsimple _).params, hm.trans (hsimple _).mode⟩ hd
  | frameSent m => exact (hsimple m).law hd
  | quiet | settle | unknownExpiry | recoveryEnd | tick | freshnessLoss | nodeSilent | lampTimer | chimeTimer | trimMark =>
    exact Device.LeavesSettings.law ⟨rfl, rfl⟩ hd
  | noEffect c m => exact (hsimple m).law hd
  | placeStatus p f | tableRead p f | globalFaultsRead p f | placeFaultsRead p f | globalFaultsClear p f | placeFaultsClear p f
  | setPolicy p f | setAttn p f | calZero p f | acceptMap f => exact (hsimple f.moment).law hd

/-- Settles O58: RESET loads the defaults, and every other command leaves the settings or takes an event of `Device.Event.settings`. -/
theorem everyStepKeepsParametersAndMode : Obligations.EveryStepKeepsParametersAndMode := by
  intro c s t hs h
  by_cases hc : c = .reset
  · subst hc; cases h
    have hreset : Params.reset.law := by decide
    exact ⟨hreset, .inr (.inl rfl)⟩
  · rcases exec_event h hc with he | ⟨e, he, ht⟩
    · rw [he]; exact ⟨hs, .inl rfl⟩
    · rw [ht]
      obtain ⟨hlaw, (hkept | hstarted) | hfreeze | hunfreeze⟩ := he.settings hs
      · exact ⟨hlaw, .inl hkept⟩
      · exact ⟨hlaw, .inr (.inr (.inr (.inr hstarted)))⟩
      · exact ⟨hlaw, .inr (.inr (.inl hfreeze))⟩
      · exact ⟨hlaw, .inr (.inr (.inr (.inl hunfreeze)))⟩

end Sys2Proof.Machine
end

section
/-! PROOF. O21, O22, O23: the station table's times. -/

namespace Sys2Proof.Machine

/-! ## Probe marks and re-probe marks (O21) -/

theorem exec_probeMark {s : State} {mark : Nat} (h : s.dev.st.nextProbe = some mark) (hm : mark ≤ s.dev.time.now) :
    exec .probeMark s = .next { s with dev := (s.dev.probeMark mark).finish } := by
  change execProbeMark s = _
  rw [execProbeMark, h]
  exact if_pos hm

section
variable (d : Device)

@[simp] theorem Device.askProbe_lc (c : Code) : (d.askProbe c).lc = d.lc := by
  unfold Device.askProbe; simp only; split <;> rfl
@[simp] theorem Device.askProbe_places (c : Code) : (d.askProbe c).places = d.places := by
  unfold Device.askProbe; simp only; split <;> rfl
@[simp] theorem Device.askProbe_records (c : Code) : (d.askProbe c).ss.records = d.ss.records := by
  unfold Device.askProbe; simp only; split <;> rfl
@[simp] theorem Device.askProbe_nextProbe (c : Code) : (d.askProbe c).st.nextProbe = d.st.nextProbe := by
  unfold Device.askProbe; simp only; split <;> rfl
@[simp] theorem Device.askProbe_lastProbe (c : Code) : (d.askProbe c).st.lastProbe = d.st.lastProbe := by
  unfold Device.askProbe; simp only; split <;> rfl
@[simp] theorem Device.askProbe_waiting (c : Code) :
    (d.askProbe c).ss.waiting = d.ss.waiting ++ [{ station := c, cmd := .identify, block := .st }] := by
  unfold Device.askProbe; simp only; split <;> rfl

/-- Only an ABSENT station changes when its probe is asked for: it becomes PROBING (R23). -/
@[simp] theorem Device.askProbe_station (c k : Code) :
    (d.askProbe c).station k =
      if k = c ∧ (d.station c).state = .absent then { d.station c with state := .probing } else d.station k := by
  unfold Device.askProbe; simp only
  by_cases ha : (d.station c).state = .absent <;> by_cases hk : k = c <;> simp [ha, hk]

/-- A mark with the previous probe outstanding, or with no station to pick, puts the next mark and nothing else (R23). -/
theorem Device.probeMark_idle {mark : Nat} (h : d.probeOutstanding = true ∨ d.probePick = none) :
    d.probeMark mark = { d with st := { d.st with nextProbe := some (mark + 500) } } := by
  unfold Device.probeMark
  rcases h with ho | hp
  · rw [if_pos ho]
  · rw [hp]; exact ite_self _

theorem Device.probeMark_pick {mark : Nat} {c : Code} (ho : d.probeOutstanding = false) (hp : d.probePick = some c) :
    d.probeMark mark = { d with st := { d.st with nextProbe := some (mark + 500), lastProbe := some c } }.askProbe c := by
  unfold Device.probeMark
  rw [if_neg (by rw [ho]; decide), hp]

theorem Device.probeMark_pick_station {mark : Nat} {c : Code} (ho : d.probeOutstanding = false) (hp : d.probePick = some c) (k : Code) :
    (d.probeMark mark).station k =
      if k = c ∧ (d.station c).state = .absent then { d.station c with state := .probing } else d.station k := by
  rw [d.probeMark_pick ho hp, Device.askProbe_station]; rfl

end

/-- Settles O21: the two cases of a probe mark are `probeMark_idle` and `probeMark_pick`; a re-probe mark is its definition, read off by
whether an IDENTIFY is outstanding. -/
theorem probeMarksAskForAnIdentify : Obligations.ProbeMarksAskForAnIdentify := by
  refine ⟨fun s mark hn hm => ⟨_, exec_probeMark hn hm, ?_⟩, fun c s mark hs hn hm => ?_⟩
  · by_cases hidle : s.dev.probeOutstanding = true ∨ s.dev.probePick = none
    · rw [s.dev.probeMark_idle hidle]
      refine ⟨rfl, rfl, rfl, rfl, rfl, fun _ => ⟨rfl, rfl, rfl⟩, fun c ho hp => ?_⟩
      rw [ho, hp] at hidle
      rcases hidle with h | h <;> cases h
    · obtain ⟨ho, c, hp⟩ : s.dev.probeOutstanding = false ∧ ∃ c, s.dev.probePick = some c := by
        rw [not_or, Bool.not_eq_true] at hidle
        exact ⟨hidle.1, Option.ne_none_iff_exists'.mp hidle.2⟩
      rw [s.dev.probeMark_pick ho hp]
      refine ⟨by simp, rfl, by simp, by simp, by simp, fun h => absurd h hidle, fun k _ hk => ?_⟩
      obtain rfl : c = k := Option.some.inj (hp.symm.trans hk)
      have hst := fun j => s.dev.probeMark_pick_station ho hp (mark := mark) j
      rw [s.dev.probeMark_pick ho hp] at hst
      refine ⟨by simp, by simp, fun j hj => ?_, fun ha => ?_, fun hf => ?_⟩
      · exact (hst j).trans (if_neg fun h => hj h.1)
      · exact (hst c).trans (if_pos ⟨rfl, ha⟩)
      · exact (hst c).trans (if_neg fun h => by rw [hf] at h; exact absurd h.2 (by decide))
  · have hexec : exec (.reProbeMark c) s = .next { s with dev := (s.dev.reProbeMark c mark).finish } := by
      change execReProbeMark c s = _
      rw [execReProbeMark, hn]
      exact if_pos ⟨hs, hm⟩
    rw [hexec, Device.reProbeMark]
    by_cases hi : s.dev.identifyOutstanding c = true
    · simp only [if_pos hi]; rfl
    · simp only [if_neg hi]; rfl

/-! ## The SILENT expiry (O22) -/

/-- A rebuild leaves every scan record. -/
@[simp] theorem Device.rebuild_records (d : Device) : d.rebuild.ss.records = d.ss.records := by
  simp only [Device.rebuild, Device.setGlobal_ss]; split <;> rfl

theorem Device.rebuild_state (d : Device) (c : Code) : (d.rebuild.station c).state = (d.station c).state := by
  rw [d.rebuild_station_eq c]

/-- Settles O22: a SILENT station that expires is ABSENT, and the rebuilt list holds a place of no ABSENT station. -/
theorem aSilentStationExpires : Obligations.ASilentStationExpires := by
  intro c s since hs hsince hpassed
  have hexec : exec (.silentExpiry c) s = execSilentExpiry c s := rfl
  rw [hexec, execSilentExpiry, hsince]
  refine ⟨fun hr => if_neg fun h => ?_, fun hr => ⟨_, if_pos ⟨hs, decide_eq_true hpassed, hr⟩, ?_⟩⟩
  · rw [hr] at h; exact absurd h.2.2 (by decide)
  · have hgone : ((s.dev.toAbsent c).station c).listed = false := by
      rw [Device.toAbsent_station, if_pos rfl]; rfl
    refine ⟨rfl, ?_, ?_, fun k => ?_, fun r hr => ?_, Device.rebuild_unlisted _ c hgone, ?_⟩
    · exact Device.rebuild_lc _
    · exact (Device.rebuild_station_unlisted _ c hgone).trans (by rw [Device.toAbsent_station, if_pos rfl])
    · refine (Device.rebuild_state _ k).trans ?_
      rw [Device.toAbsent_station]
      split <;> rfl
    · have hwaits : r ∈ (s.dev.toAbsent c).ss.waiting := Device.mem_rebuild_waiting hr
      rw [Device.toAbsent_waiting, List.mem_filter] at hwaits
      exact ⟨of_decide_eq_true hwaits.2, hwaits.1⟩
    · exact Device.rebuild_records _

/-! ## The start-up time limit (O23) -/

theorem Place.marked_evalVerdict_reminder (e : Env) (p : Place) (port : Port) :
    (p.evalVerdict e).marked port .reminder = p.marked port .reminder := by
  unfold Place.evalVerdict
  split
  · rfl
  · split
    · rfl
    · rw [Place.marked_mark, decide_eq_false (by decide), Bool.or_false]; rfl

/-- The change of the mode writes verdict, stage, timer and marks, and leaves the verdict of R108 and the reminder as evaluated (R109,
R151). -/
theorem Place.modeChanged_evaluated (d e : Device) (p : Place) (hm : e.mode ≠ .frozen) :
    p.modeChanged d.env e.env = { p with
      verdict := (p.modeChanged d.env e.env).verdict, stage := (p.modeChanged d.env e.env).stage
      timer := (p.modeChanged d.env e.env).timer, marks := (p.modeChanged d.env e.env).marks } ∧
    (p.modeChanged d.env e.env).verdict = e.env.verdictOf (p.modeChanged d.env e.env) ∧
    d.evaluated e p (p.modeChanged d.env e.env) := by
  unfold Place.modeChanged
  have hverdict : (p.evalVerdict e.env).judgedBy e.env := Place.judged_evalVerdict _ _
  refine ⟨?_, ?_, Place.remind_evaluated d e p _ (by simp) (by simp) (p.marked_evalVerdict_reminder e.env)⟩
  · rw [Place.remind_eq, Place.evalVerdict_eq]
  · exact Place.judgedBy_of_eq hverdict (by simp) (by simp) (by simp) (by simp) (by simp) (by simp) hm

theorem Device.completeStartup_inStartUp {d : Device} (h : d.mode = .startUp) :
    d.completeStartup.places = d.places.map (Place.modeChanged d.env d.completeStartup.env) ∧ d.completeStartup.mode = .run := by
  unfold Device.completeStartup
  rw [if_pos h]
  exact ⟨rfl, rfl⟩

theorem Device.completeStartup_otherwise {d : Device} (h : d.mode ≠ .startUp) : d.completeStartup.places = d.places := by
  unfold Device.completeStartup; rw [if_neg h]

theorem Device.completeStartup_st (d : Device) : d.completeStartup.st = { d.st with nextProbe := some (d.stamp + 500) } := by
  unfold Device.completeStartup; simp only; split <;> rfl

theorem Device.completeStartup_generation (d : Device) : d.completeStartup.generation = d.generation := by
  unfold Device.completeStartup; simp only; split <;> rfl

/-- Settles O23: start-up completion maps `Place.modeChanged` over the list where the mode was START_UP, and leaves the list else. -/
theorem startUpCompletesByItsTimeLimit : Obligations.StartUpCompletesByItsTimeLimit := by
  intro s
  have hexec : exec .startupTimeLimit s = execStartupTimeLimit s := rfl
  rw [hexec, execStartupTimeLimit]
  refine ⟨fun hdone hlimit => ⟨_, if_pos ⟨hdone, hlimit⟩, ?_⟩, fun h => if_neg ?_⟩
  · refine ⟨rfl, s.dev.completeStartup_startupDone, s.dev.completeStartup_mode, s.dev.completeStartup_st, s.dev.completeStartup_lc,
      congrArg (·.records) s.dev.completeStartup_ss, s.dev.completeStartup_generation, ?_⟩
    by_cases hm : s.dev.mode = .startUp
    · obtain ⟨hplaces, hrun⟩ := Device.completeStartup_inStartUp hm
      refine ⟨?_, fun n p q hp hq => ⟨fun h => absurd hm h, fun _ => ?_⟩⟩
      · have hid : Place.id ∘ Place.modeChanged s.dev.env s.dev.completeStartup.env = Place.id :=
          funext fun p => (Place.agrees_modeChanged _ _ p).id_eq
        rw [Device.finish_places, hplaces, List.map_map, hid]
      · rw [Device.finish_places, hplaces, List.getElem?_map, hp] at hq
        obtain rfl := Option.some.inj hq
        exact Place.modeChanged_evaluated s.dev s.dev.completeStartup.finish p (by rw [Device.finish_mode, hrun]; decide)
    · have hplaces := Device.completeStartup_otherwise hm
      refine ⟨congrArg _ hplaces, fun n p q hp hq => ⟨fun _ => ?_, fun h => absurd h hm⟩⟩
      rw [Device.finish_places, hplaces, hp] at hq
      exact (Option.some.inj hq).symm
  · rintro ⟨hdone, hlimit⟩
    rcases h with h | h
    · rw [hdone] at h; cases h
    · omega

end Sys2Proof.Machine
end

section
/-! PROOF. O40: LINK_TEST. -/

namespace Sys2Proof.Machine

/-! ## The rule of LINK_TEST by its table (R37) -/

theorem stationSelector_eq {f : Frame} {c : Code} (h : f.selector.toNat = c.val + 1) : stationSelector f = some c := by
  rw [stationSelector, dif_pos ⟨by omega, by omega⟩]
  exact congrArg some (Fin.ext (by simp [h]))

theorem stationSelector_none {f : Frame} (h : f.selector.toNat = 0 ∨ 12 < f.selector.toNat) : stationSelector f = none :=
  dif_neg (by omega)

theorem Device.calibrating_iff (d : Device) (c : Code) :
    d.calibrating c = true ↔ ∃ q ∈ d.places, q.id.station = c ∧ q.calRunning = true := by
  simp [Device.calibrating]

theorem linkTestAnswer_eq {d : Device} {f : Frame} {c : Code} (h : f.selector.toNat = c.val + 1) :
    linkTestAnswer d f =
      if d.mode = .frozen ∨ (d.station c).state ≠ .active then .wrongState else if d.calibrating c = true then .busy else .ok := by
  have hc : ∀ hlt : f.selector.toNat - 1 < 12, (⟨f.selector.toNat - 1, hlt⟩ : Code) = c := fun _ => Fin.ext (by simp [h])
  rw [linkTestAnswer, dif_pos ⟨by omega, by omega⟩]
  simp only [hc, ← Device.calibrating_iff]
  by_cases hm : d.mode = .frozen
  · rw [if_pos hm, if_pos (.inl hm)]
  · by_cases hs : (d.station c).state = .active <;> simp [hm, hs]

theorem linkTestAnswer_ok {d : Device} {f : Frame} {c : Code} (h : f.selector.toNat = c.val + 1) :
    linkTestAnswer d f = .ok ↔ d.mode ≠ .frozen ∧ (d.station c).state = .active ∧ d.calibrating c = false := by
  rw [linkTestAnswer_eq h]
  by_cases hwrong : d.mode = .frozen ∨ (d.station c).state ≠ .active
  · rw [if_pos hwrong]
    refine iff_of_false (by decide) ?_
    rintro ⟨hm, hs, -⟩
    exact hwrong.elim hm (fun h => h hs)
  · rw [if_neg hwrong]
    rw [not_or, not_not] at hwrong
    cases hcal : d.calibrating c <;> simp [hwrong]

/-- A refused LINK_TEST, and one whose station has a test pending, change nothing. -/
theorem linkTestRule_kept {d : Device} {f : Frame} {c : Code} (u : PortUnit) (h : f.selector.toNat = c.val + 1)
    (hk : linkTestAnswer d f ≠ .ok ∨ (d.station c).testPending = true) :
    linkTestRule f d u = Reply.only (linkTestAnswer d f) (d.station c).word0 d u := by
  rw [linkTestAnswer_eq h] at hk ⊢
  rw [linkTestRule, stationSelector_eq h]
  by_cases hm : d.mode = .frozen
  · simp [hm]
  · by_cases hs : (d.station c).state = .active
    · by_cases hcal : d.calibrating c = true
      · simp [hm, hs, hcal]
      · simp [hm, hs, hcal] at hk
        simp [hm, hs, hcal, hk]
    · simp [hm, hs]

/-- The test is made pending and, where it can begin, taken up (R37). -/
def Device.askTest (d : Device) (c : Code) : Device := (d.setStation c { d.station c with testPending := true }).takeUpTest c

theorem linkTestRule_taken {d : Device} {f : Frame} {c : Code} (u : PortUnit) (h : f.selector.toNat = c.val + 1)
    (hok : linkTestAnswer d f = .ok) (hp : (d.station c).testPending = false) :
    linkTestRule f d u = { status := .ok, data := ((d.askTest c).station c).word0, dev := d.askTest c, unit := u } := by
  obtain ⟨hm, hs, hcal⟩ := (linkTestAnswer_ok h).1 hok
  rw [linkTestRule, stationSelector_eq h]
  simp [hm, hs, hcal, hp, Device.askTest]

/-- With no scan in progress the test begins at once. -/
theorem Device.askTest_begins {d : Device} {c : Code} (hs : (d.station c).state = .active) (hcal : d.calibrating c = false)
    (hscan : (d.record c).scan = none) :
    d.askTest c = (d.setStation c { d.station c with testPending := true }).beginTest c :=
  if_pos ⟨by simpa using hs, by simp, by simpa using hscan, hcal⟩

theorem Device.askTest_waits {d : Device} {c : Code} (hscan : (d.record c).scan.isSome = true) :
    d.askTest c = d.setStation c { d.station c with testPending := true } :=
  if_neg fun h => by
    rw [Device.setStation_record] at h
    rw [h.2.2.1] at hscan
    cases hscan

theorem Device.askTest_places (d : Device) (c : Code) : (d.askTest c).places = d.places := by
  unfold Device.askTest Device.takeUpTest; split <;> rfl

theorem Device.elsewhere_askTest (d : Device) (c : Code) : Device.Elsewhere c d (d.askTest c) :=
  (d.elsewhere_setStation c _).trans (Device.elsewhere_takeUpTest _ c)

theorem linkTestAnswer_atMoment (d : Device) (m : Moment) (f : Frame) : linkTestAnswer (d.atMoment m) f = linkTestAnswer d f := by
  cases m <;> rfl

/-- Settles O40: `linkTestRule_kept` and `linkTestRule_taken` say what the request does, `askTest_begins` and `askTest_waits` whether the
test begins. -/
theorem linkTestBeginsOrWaits : Obligations.LinkTestBeginsOrWaits := by
  refine ⟨fun p f s hopen hrange => ?_, fun p f s c hopen hc => ?_⟩
  · have hrule : linkTestRule f (s.dev.atMoment f.moment) (s.ports.get p) =
        Reply.only .range 0 (s.dev.atMoment f.moment) (s.ports.get p) := by
      rw [linkTestRule, stationSelector_none hrange]
    obtain ⟨t, hexec, hdev, hanswered, hkept⟩ :=
      State.takeRequest_open s p f Request.linkTest.code (linkTestRule f) hopen (by rw [hrule]; rfl)
    rw [hrule] at hdev hanswered hkept
    exact ⟨t, hexec, hkept, by rw [State.blocksKept, hdev]; exact s.dev.kept_finish f.moment, hanswered⟩
  · have hmoment := linkTestAnswer_atMoment s.dev f.moment f
    by_cases hkeeps : linkTestAnswer s.dev f ≠ .ok ∨ (s.dev.station c).testPending = true
    · have hrule := linkTestRule_kept (s.ports.get p) (d := s.dev.atMoment f.moment) hc (by rw [hmoment]; simpa using hkeeps)
      obtain ⟨t, hexec, hdev, hanswered, hkept⟩ :=
        State.takeRequest_open s p f Request.linkTest.code (linkTestRule f) hopen (by rw [hrule]; rfl)
      rw [hrule] at hdev hanswered hkept
      replace hdev : t.dev = (s.dev.atMoment f.moment).finish := hdev
      have hst : ∀ k : Code, t.dev.station k = s.dev.station k := fun k => by rw [hdev]; simp
      refine ⟨t, hexec, hkept, ?_, by rw [hdev]; simp, fun k _ => hst k, fun _ => ?_, fun hok hp => ?_, fun hok _ => ⟨?_, ?_, ?_⟩⟩
      · rw [hst c, ← hmoment, ← s.dev.atMoment_station f.moment c]
        exact hanswered
      · rw [State.blocksKept, hdev]; exact s.dev.kept_finish f.moment
      · exact (hkeeps.elim (fun h => h hok) (fun h => by rw [hp] at h; cases h)).elim
      · rw [hst c, ← hkeeps.resolve_left (not_not_intro hok)]
      · rw [hdev]; simp
      · rw [hdev]; simp
    · obtain ⟨hok, hp⟩ : linkTestAnswer s.dev f = .ok ∧ (s.dev.station c).testPending = false := by simpa using hkeeps
      obtain ⟨_, hs, hcal⟩ := (linkTestAnswer_ok hc).1 hok
      have hrule := linkTestRule_taken (s.ports.get p) (d := s.dev.atMoment f.moment) hc (by rw [hmoment, hok]) (by simpa using hp)
      obtain ⟨t, hexec, hdev, hanswered, hkept⟩ :=
        State.takeRequest_open s p f Request.linkTest.code (linkTestRule f) hopen (by rw [hrule])
      rw [hrule] at hdev hanswered hkept
      replace hdev : t.dev = ((s.dev.atMoment f.moment).askTest c).finish := hdev
      refine ⟨t, hexec, hkept, ?_, ?_, fun k hk => ?_, fun h => absurd h hkeeps, fun _ _ hscan => ?_, fun _ hscan => ?_⟩
      · rw [hok, hdev]; exact hanswered
      · rw [hdev, Device.finish_places, Device.askTest_places, Device.atMoment_places]
      · rw [hdev]
        exact ((Device.elsewhere_askTest _ c) k hk).1.trans (by simp)
      · rw [hdev, Device.askTest_begins (by simpa using hs) (by simpa using hcal) (by simpa using hscan)]
        simp [Device.beginTest]
      · rw [hdev, Device.askTest_waits (by simpa using hscan)]
        simp

end Sys2Proof.Machine
end

section
/-! SUPPORT. How a scan that ends failed, and a node restart, stand after the event (R31, R32, R37, R62, R128). -/

namespace Sys2Proof.Machine

/-! ## No calibration runs (R128, R132) -/

theorem Place.calRunning_endCal (e : Env) (st : CalEnd) (p : Place) : (p.endCal e st).calRunning = false := by
  rw [Place.endCal_eq]; rfl

theorem Place.calRunning_abortCal (e : Env) (st : CalEnd) (p : Place) : (p.abortCal e st).calRunning = false := by
  unfold Place.abortCal
  split
  · rw [Place.markReminder_eq]
    exact p.calRunning_endCal e st
  · rename_i h; exact Bool.eq_false_iff.2 h

/-- No calibration runs on a listed place of the station. -/
abbrev Device.restful (d : Device) (c : Code) : Prop := ∀ q ∈ d.places, q.id.station = c → q.calRunning = false

section
variable {d : Device} {c : Code}

theorem Device.restful_mapPlaces_ofStation {f : Place → Place} (hf : ∀ p, (f p).calRunning = false) :
    (d.mapPlaces (Place.ofStation c f)).restful c := by
  intro q hq hc
  obtain ⟨p, _, rfl⟩ := List.mem_map.1 hq
  unfold Place.ofStation at hc ⊢
  split
  · exact hf p
  · rename_i hp; rw [if_neg hp] at hc; exact absurd hc hp

theorem Device.restful_abortNode : (d.abortNode c).restful c :=
  Device.restful_mapPlaces_ofStation (d := d) (c := c) fun p => p.calRunning_abortCal d.env .abortedNode

theorem Device.newPlace_calRunning (d : Device) (id : Identity) : (d.newPlace id).calRunning = false := by
  simp [Device.newPlace, freshPlace, Place.calRunning]

theorem Place.agrees.calRunning {p q : Place} (h : q.agrees p) : q.calRunning = p.calRunning := by rw [h]; rfl

/-- A list change begins no calibration. -/
theorem Device.restful.settled (h : d.restful c) : d.settled.restful c := by
  intro q hq hc
  obtain ⟨p, hp, hqp⟩ := Device.mem_settled hq
  rw [hqp.id_eq] at hc
  rw [hqp.calRunning]
  rcases hp with hp | hp
  · exact h p hp hc
  · rw [hp]; exact d.newPlace_calRunning p.id

theorem Device.calibrating_eq_false_iff : d.calibrating c = false ↔ d.restful c := by
  simp [Device.calibrating]

/-! ## A scan ends failed (R31) -/

/-- The scan ended and its failure counted, before anything follows from the count. -/
def Device.countFailure (d : Device) (c : Code) : Device :=
  (d.endScan c).setStation c { d.station c with failures := (d.station c).failures + 1 }

@[simp] theorem Device.endScan_stamp (d : Device) (c : Code) : (d.endScan c).stamp = d.stamp := rfl

theorem Device.scanFailed_third (h : 2 ≤ (d.station c).failures) : d.scanFailed c = (d.endScan c).toSilent c :=
  if_pos (by omega)

theorem Device.scanFailed_below (h : (d.station c).failures < 2) : d.scanFailed c = (d.countFailure c).takeUpTest c :=
  if_neg (by omega)

@[simp] theorem Device.scanFailed_lc : (d.scanFailed c).lc = d.lc :=
  (congrArg Device.lc (Device.goes_scanFailed (held_work d.env) c).still :)

/-- Below the third failure a pending test begins on an ACTIVE station without a running calibration, and else waits (R37). -/
theorem Device.takeUpTest_countFailure (d : Device) (c : Code) :
    (d.countFailure c).takeUpTest c =
      if (d.station c).state = .active ∧ (d.station c).testPending = true ∧ d.restful c then (d.countFailure c).beginTest c
      else d.countFailure c := by
  have hcal : (d.countFailure c).calibrating c = false ↔ d.restful c := d.calibrating_eq_false_iff
  exact if_congr (by rw [hcal]; simp [Device.countFailure]) rfl rfl

/-- The scan's end counts a failure: at the third the station is SILENT, below it a pending test is taken up where it can begin. -/
theorem Device.scanFailedTo_scanFailed (d : Device) (c : Code) : d.scanFailedTo (d.scanFailed c) c d.stamp := by
  by_cases hn : (d.station c).failures < 2
  · rw [Device.scanFailed_below hn, Device.takeUpTest_countFailure]
    refine ⟨?_, fun h => absurd h (by omega), fun _ => ?_⟩
    · split <;> simp [Device.countFailure, Device.beginTest]
    · by_cases htest : (d.station c).state = .active ∧ (d.station c).testPending = true ∧ d.restful c
      · rw [if_pos htest, if_pos htest]
        simp [Device.countFailure, Device.beginTest, Device.askedLast]
      · rw [if_neg htest, if_neg htest]
        simp [Device.countFailure]
  · have hrest : (d.scanFailed c).restful c := by
      rw [Device.scanFailed_third (by omega)]
      exact Device.restful_abortNode
    rw [Device.scanFailed_third (by omega)] at hrest ⊢
    refine ⟨?_, fun _ => ⟨?_, ?_, ?_, ?_, ?_, ?_, hrest⟩, fun h => absurd h hn⟩
    all_goals simp [Device.toSilent, Device.abortNode]

/-- What `scanFailedTo` says stands after the list is rebuilt. -/
theorem Device.scanFailedTo.settled {e : Device} {stamp : Nat} (h : d.scanFailedTo e c stamp) : d.scanFailedTo e.settled c stamp := by
  obtain ⟨hscan, hthird, hbelow⟩ := h
  refine ⟨by rw [Device.settled_record, hscan], fun hn => ?_, fun hn => ?_⟩
  · obtain ⟨h1, h2, h3, h4, h5, h6, hrest⟩ := hthird hn
    rw [Device.settled_record, e.settled_station_eq]
    exact ⟨h1, h2, h3, h4, h5, h6, Device.restful.settled hrest⟩
  · obtain ⟨hcount, hrest⟩ := hbelow hn
    rw [Device.settled_record, e.settled_station_eq]
    refine ⟨hcount, ?_⟩
    by_cases htest : (d.station c).state = .active ∧ (d.station c).testPending = true ∧ d.restful c
    · rw [if_pos htest] at hrest ⊢
      obtain ⟨h1, h2, h3, h4, hlast⟩ := hrest
      exact ⟨h1, h2, h3, h4, Device.askedLast_settled rfl hlast⟩
    · rw [if_neg htest] at hrest ⊢
      exact hrest

theorem Device.scanFailedTo.finish {e : Device} {stamp : Nat} (h : d.scanFailedTo e c stamp) : d.scanFailedTo e.finish c stamp := by
  simpa only [Device.scanFailedTo, Device.askedLast, Device.finish_record, Device.finish_station, Device.finish_places,
    Device.finish_ss_waiting] using h

/-- `scanFailedTo` reads of the device before the event the station, its due time and the places. -/
theorem Device.scanFailedTo.of_eq {d' e : Device} {stamp : Nat} (h : d.scanFailedTo e c stamp) (hs : d'.station c = d.station c)
    (hd : (d'.record c).due = (d.record c).due) (hp : d'.places = d.places) : d'.scanFailedTo e c stamp := by
  simpa only [Device.scanFailedTo, hs, hd, hp] using h

/-! ## A node restart (R32, R68) -/

/-- A node restart seen by a scan or a CAL_STORE, after the list is rebuilt. -/
theorem Device.nodeRestart_settled (d : Device) (c : Code) :
    (d.nodeRestart c).settled.restarted c true ∧ ((d.nodeRestart c).settled.station c).failures = 0 ∧
    ((d.nodeRestart c).settled.station c).testPending = false ∧ ((d.nodeRestart c).settled.record c).scan = none ∧
    ((d.nodeRestart c).settled.record c).due = none ∧ (d.nodeRestart c).settled.restful c := by
  refine ⟨Device.restarted_reload true 0, ?_, ?_, ?_, ?_, Device.restful.settled fun q hq hc => ?_⟩
  · rw [Device.settled_station_eq]; simp [Device.nodeRestart, Device.reload]
  · rw [Device.settled_station_eq]; simp [Device.nodeRestart, Device.reload, Station.toLoading]
  · rw [Device.settled_record]; simp [Device.nodeRestart, Device.reload, Device.abortNode]
  · rw [Device.settled_record]; simp [Device.nodeRestart, Device.reload, Device.abortNode]
  · obtain ⟨p, hp, rfl⟩ := List.mem_map.1
      (show q ∈ ((d.stopScanning c).abortNode c).places.map (Place.ofStation c (fun p => p.setFault .nodeRestart true)) from hq)
    unfold Place.ofStation at hc ⊢
    split
    · rename_i hpc
      have hrest : p.calRunning = false := Device.restful_abortNode p hp hpc
      rw [Place.calRunning, Place.setFault_cal]
      exact hrest
    · rename_i hpc; rw [if_neg hpc] at hc; exact absurd hc hpc

end

/-! ## The device as the requesting block finds it -/

theorem Device.setExcitation_scan (d : Device) (c k : Code) (e : Excitation) :
    ((d.setExcitation c e).record k).scan = (d.record k).scan ∧ ((d.setExcitation c e).record k).due = (d.record k).due := by
  simp only [Device.setExcitation, Device.setRecord_record]
  split
  · rename_i h; subst h; exact ⟨rfl, rfl⟩
  · exact ⟨rfl, rfl⟩

/-- From `d` to `e` LC has closed an exchange at the moment `m`: the stations, the places, the requests that wait, the scans and the
surroundings of the places are those of `d` at that moment. -/
structure Device.Heard (d : Device) (m : Moment) (e : Device) : Prop where
  st      : e.st = d.st
  places  : e.places = d.places
  waiting : e.ss.waiting = d.ss.waiting
  scan    : ∀ k, (e.record k).scan = (d.record k).scan
  due     : ∀ k, (e.record k).due = (d.record k).due
  env     : e.env = (d.atMoment m).env

theorem Device.heard_heard (d : Device) (m : Moment) (x : Exchange) (o : LinkOutcome) : d.Heard m ((d.atMoment m).heard x o) := by
  rw [Device.heard_eq]
  refine ⟨d.atMoment_st m, d.atMoment_places m, ?_, fun k => ?_, fun k => ?_, rfl⟩
  · exact congrArg (·.waiting) (d.atMoment_ss m)
  · exact (Device.setExcitation_scan _ _ k _).1.trans (congrArg _ (d.atMoment_record m k))
  · exact (Device.setExcitation_scan _ _ k _).2.trans (congrArg _ (d.atMoment_record m k))

namespace Device.Heard

variable {d e : Device} {m : Moment} (h : d.Heard m e)
include h

theorem station (k : Code) : e.station k = d.station k := by unfold Device.station; rw [h.st]
theorem stamp : e.stamp = (d.atMoment m).stamp := (congrArg Env.stamp h.env :)
theorem now : e.time.now = d.time.now := (congrArg Env.now h.env :).trans (d.atMoment_now m)

theorem listed (hl : d.mapLaw) : e.places.map Place.id = e.newList := by
  obtain ⟨-, hids, -, -⟩ := hl
  rw [h.places, hids]
  refine (Device.newList_of_offered fun k => Device.offered_of_seats ?_).symm
  rw [h.station k]; exact ⟨rfl, rfl, rfl⟩

end Device.Heard

/-- The end of an exchange: LC closes it, the block that asked takes the outcome, the list is rebuilt. -/
theorem exec_of_endOf_handed {i : Instr} {m : Moment} {o : LinkOutcome} {s : State} {x : Exchange} (hx : s.dev.lc.exchange = some x)
    (h : s.dev.endOf x i = some (m, o)) :
    ∃ (d : Device) (rx : List Byte), s.dev.Heard m d ∧
      exec i s = .next { s with dev := (d.handed { x with rx := rx } o).settled.finish } := by
  obtain ⟨rx, he⟩ := exec_of_endOf hx h
  exact ⟨_, rx, s.dev.heard_heard m { x with rx := rx } o, he⟩

end Sys2Proof.Machine
end

section
/-! PROOF. O17 and O16: the self-relax time, and the exchanges of a scan. -/

namespace Sys2Proof.Machine

/-! ## The self-relax time (O17) -/

/-- Settles O17: the excitation is put first, and the scan that then ends failed does not touch it (`excitations_scanFailed`). -/
theorem selfRelaxEndsAnUnsampledScan : Obligations.SelfRelaxEndsAnUnsampledScan := by
  intro c s time hexcited hreached
  have hexec : exec (.selfRelaxExpiry c) s = s.event (fun d =>
      if d.sampleNotBegun c then (d.setExcitation c (.recovering (time + 22))).scanFailed c
      else d.setExcitation c (.recovering (time + 22))) := by
    change execSelfRelaxExpiry c s = _
    rw [execSelfRelaxExpiry, hexcited]
    exact if_pos (decide_eq_true hreached)
  rw [hexec, State.event]
  refine ⟨fun hb => ?_, fun hb => ⟨_, rfl, rfl, ?_⟩⟩
  · rw [if_neg (by rw [hb]; decide)]
    simp [Device.setExcitation]
  · rw [if_pos hb]
    have hstamp : (s.dev.setExcitation c (.recovering (time + 22))).stamp = s.dev.stamp := rfl
    obtain ⟨-, hdue⟩ := s.dev.setExcitation_scan c c (.recovering (time + 22))
    have hfails := Device.scanFailedTo_scanFailed (s.dev.setExcitation c (.recovering (time + 22))) c
    have hothers := Device.elsewhere_scanFailed (s.dev.setExcitation c (.recovering (time + 22))) c
    have hexc : (((s.dev.setExcitation c (.recovering (time + 22))).scanFailed c).record c).excitation = .recovering (time + 22) := by
      rw [← Device.excitations_apply, Device.excitations_scanFailed, Device.setExcitation_excitations, if_pos rfl]
    rw [hstamp] at hfails
    replace hfails := hfails.of_eq (d' := s.dev) rfl hdue.symm rfl
    have ⟨hscan, hthird, hbelow⟩ := hfails
    refine ⟨hexc, hscan, Device.scanFailed_lc, fun k hk => ?_, ?_, fun hn => ?_, hfails⟩
    · exact ((s.dev.elsewhere_setExcitation c _).trans hothers) k hk
    · by_cases hn : 2 ≤ (s.dev.station c).failures
      · exact (hthird hn).2.1.trans (by omega)
      · exact (hbelow (by omega)).1.trans (by omega)
    · obtain ⟨hsilent, -, hsince, -⟩ := hthird hn
      exact ⟨hsilent, hsince⟩

/-! ## The exchanges of a scan (O16) -/

section
variable {d : Device} {c : Code}

/-- A scan's outcome is handed to SS while the scan is in progress (R11, R63). -/
theorem Device.handed_scan {x : Exchange} {o : LinkOutcome} (hb : x.block = .ss) (hscan : (d.record x.station).scan.isSome = true) :
    d.handed x o = d.scanOutcome x.station x.cmd o := by
  unfold Device.handed
  rw [if_neg (by rw [hb]; decide), Device.deliver, hb]
  exact if_pos hscan

theorem Device.scanOutcome_failed (cmd : LinkCommand) (k : FailKind) :
    d.scanOutcome c cmd (.failed k) = if cmd = .sample then d.setScanStep c .relaxing else d.scanFailed c := by
  cases cmd <;> rfl

theorem Device.scanOutcome_booted {cmd : LinkCommand} {a : Answer} (n : Nat) (hb : a.boot = true) :
    d.scanOutcome c cmd (.answered a n) = d.nodeRestart c := if_pos hb

theorem Device.scanOutcome_excite {a : Answer} (n : Nat) (hb : a.boot = false) :
    d.scanOutcome c .excite (.answered a n) =
      if a.result = .ack then d.setScanStep c .settling else if a.excited then d.setScanStep c .relaxing else d.scanFailed c :=
  if_neg (by rw [hb]; decide)

theorem Device.scanOutcome_sample {a : Answer} (n : Nat) (hb : a.boot = false) :
    d.scanOutcome c .sample (.answered a n) =
      if a.result = .ack ∧ a.excited = true ∧ a.pattern = false then d.scanSucceeded c a.payload else d.setScanStep c .relaxing :=
  if_neg (by rw [hb]; decide)

theorem Device.scanOutcome_relax {a : Answer} (n : Nat) (hb : a.boot = false) :
    d.scanOutcome c .relax (.answered a n) = d.scanFailed c := if_neg (by rw [hb]; decide)

/-- A scan put into another step, after a rebuild of a list that stands. -/
theorem Device.setScanStep_settled {scan : Scan} (hlist : d.places.map Place.id = d.newList) (hscan : (d.record c).scan = some scan)
    (step : ScanStep) :
    ((d.setScanStep c step).settled.record c).scan = some { scan with step := step } ∧
    ((d.setScanStep c step).settled.record c).due = (d.record c).due ∧
    (d.setScanStep c step).settled.station c = d.station c := by
  have hstations := (Device.rebuild_of_listed (d := d.setScanStep c step) hlist).2.1
  refine ⟨?_, ?_, ?_⟩
  · rw [Device.settled_record]; simp [hscan]
  · rw [Device.settled_record]; simp
  · rw [Device.settled_station, hstations]; rfl

end

/-- Settles O16: each outcome is one of `setScanStep`, `scanFailed` and `nodeRestart`, and the lemmas above say how each stands after the
list is rebuilt. -/
theorem scanExchangesSettleRelaxOrEndTheScan : Obligations.ScanExchangesSettleRelaxOrEndTheScan := by
  intro i m o s x scan hmap hx hend hb hscan
  obtain ⟨d, rx, hd, he⟩ := exec_of_endOf_handed hx hend
  have hscan' : (d.record x.station).scan = some scan := (hd.scan _).trans hscan
  rw [Device.handed_scan (x := { x with rx := rx }) hb (by rw [hscan']; rfl)] at he
  have hgoes : ∀ step, ((d.setScanStep x.station step).settled.record x.station).scan = some { scan with step := step } ∧
      ((d.setScanStep x.station step).settled.record x.station).due = (s.dev.record x.station).due ∧
      (d.setScanStep x.station step).settled.station x.station = s.dev.station x.station := by
    intro step
    rw [← hd.due, ← hd.station]
    exact Device.setScanStep_settled (hd.listed hmap) hscan' step
  have hfails : s.dev.scanFailedTo (d.scanFailed x.station).settled.finish x.station (s.dev.atMoment m).stamp := by
    rw [← hd.stamp]
    exact (Device.scanFailedTo_scanFailed d x.station).settled.finish.of_eq (hd.station _).symm (hd.due _).symm hd.places.symm
  refine ⟨_, he, rfl, fun k ho => ⟨fun hc => ?excite, fun hc => ?sample, fun hc => ?relax⟩, fun a attempts ho =>
    ⟨fun hboot => ?boot, fun hboot hc => ⟨fun hr => ?settles, fun hr hex => ?excited, fun hr hex => ?refused⟩,
      fun hboot hc hr => ?unread, fun hboot hc => ?relaxed⟩⟩
  all_goals subst ho
  case boot => rw [Device.scanOutcome_booted attempts hboot]; exact d.nodeRestart_settled x.station
  case excite | relax => rw [Device.scanOutcome_failed, hc, if_neg (by decide)]; exact hfails
  case sample => rw [Device.scanOutcome_failed, hc, if_pos rfl]; exact hgoes _
  case settles => rw [hc, Device.scanOutcome_excite attempts hboot, if_pos hr]; exact hgoes _
  case excited => rw [hc, Device.scanOutcome_excite attempts hboot, if_neg hr, if_pos hex]; exact hgoes _
  case refused => rw [hc, Device.scanOutcome_excite attempts hboot, if_neg hr, if_neg (by rw [hex]; decide)]; exact hfails
  case unread => rw [hc, Device.scanOutcome_sample attempts hboot, if_neg hr]; exact hgoes _
  case relaxed => rw [hc, Device.scanOutcome_relax attempts hboot]; exact hfails

end Sys2Proof.Machine
end

section
/-! SUPPORT. The loading exchanges (R26, R28): which comes next, and how loading stands after the list is rebuilt. -/

namespace Sys2Proof.Machine

/-! ## The next place index to read (R26) -/

theorem seatsBelow_find {p : Seat → Bool} {n : Nat} {seat : Seat} :
    (seatsBelow n).find? p = some seat ↔ seat.val < n ∧ p seat = true ∧ ∀ k : Seat, k < seat → k.val < n → p k = false := by
  rw [seatsBelow, List.find?_filter, List.find?_eq_some_iff_getElem]
  simp only [List.getElem_finRange, List.length_finRange]
  constructor
  · rintro ⟨hseat, i, hi, rfl, hbelow⟩
    have hseat' : i < n ∧ p ⟨i, hi⟩ = true := by simpa using hseat
    exact ⟨hseat'.1, hseat'.2, fun k hk hn => by simpa [hn] using hbelow k.val hk⟩
  · rintro ⟨hlow, hp, hbelow⟩
    refine ⟨by simpa using ⟨hlow, hp⟩, seat.val, seat.isLt, rfl, fun j hj => ?_⟩
    by_cases hn : j < n
    · simpa [hn] using hbelow ⟨j, by omega⟩ hj hn
    · simp [hn]

/-- `nextToRead` is the lowest place index of the count whose load status is NOT_READ. -/
theorem Station.readsNext_iff (s : Station) (seat : Seat) : s.readsNext seat ↔ s.nextToRead = some seat := by
  rw [Station.nextToRead, seatsBelow_find]
  refine and_congr_right fun hseat => and_congr (by simp) ?_
  refine forall₂_congr fun k hk => ?_
  have hlow : k.val < s.count.getD 0 := Nat.lt_trans hk hseat
  simp [hlow, Option.isSome_iff_ne_none]

theorem Station.nextToRead_none {s : Station} (h : ∀ seat : Seat, ¬ s.readsNext seat) : s.nextToRead = none :=
  Option.eq_none_iff_forall_ne_some.2 fun seat hs => h seat ((s.readsNext_iff seat).2 hs)

section
variable {d : Device} {c : Code}

theorem Device.continueLoading_next {seat : Seat} (h : (d.station c).readsNext seat) :
    d.continueLoading c = d.ask c (.calRead seat) .st := by
  unfold Device.continueLoading
  rw [(Station.readsNext_iff _ _).1 h]

theorem Device.continueLoading_complete (h : ∀ seat : Seat, ¬ (d.station c).readsNext seat) :
    d.continueLoading c = d.loadingComplete c := by
  unfold Device.continueLoading
  rw [Station.nextToRead_none h]

/-! ## After the rebuild -/

/-- While a station is being taken in, start-up does not finish by the end of an exchange (R40). -/
theorem Device.settled_of_takingIn (h : (d.station c).takingIn = true) : d.settled = d.rebuild := by
  have hstation : (d.rebuild.station c).takingIn = true := by rw [d.rebuild_station_eq c]; exact h
  unfold Device.settled
  rw [if_neg]
  intro hf
  simp only [Device.startupFinished, Bool.and_eq_true, List.all_eq_true] at hf
  have hnot := hf.2 c (List.mem_finRange c)
  rw [hstation] at hnot
  cases hnot

/-- The list stands while a station keeps its seats and the others their records. -/
theorem Device.listed_of_elsewhere {e : Device} (h : d.places.map Place.id = d.newList) (he : Device.Elsewhere c d e)
    (hc : (d.station c).sameSeats (e.station c)) (hp : e.places.map Place.id = d.places.map Place.id) :
    e.places.map Place.id = e.newList := by
  rw [hp, h]
  exact (Device.newList_of_offered (Device.offered_of_elsewhere he hc)).symm

/-- Asking for an exchange changes no station and no place, so it is asked for after the rebuild as well. -/
theorem Device.ask_settled {cmd : LinkCommand} {b : Block} (h : d.places.map Place.id = d.newList) :
    (∀ k, (d.ask c cmd b).settled.station k = d.station k) ∧
    (d.ask c cmd b).settled.ss.waiting.getLast? = some { station := c, cmd := cmd, block := b } := by
  obtain ⟨-, hstations, hss, -⟩ := Device.rebuild_of_listed (d := d.ask c cmd b) h
  refine ⟨fun k => by rw [Device.settled_station, hstations]; rfl, ?_⟩
  rw [Device.settled_waiting, hss, Device.ask_ss_waiting, List.getLast?_concat]

end

/-! ## The values read (R27) and the station reload (R28, R96, R122) -/

theorem calValuesOf_cell (payload : List Byte) (cell : Cell) :
    (calValuesOf payload).zeros[cell] = payloadWord payload (2 * cell.val) ∧
    (calValuesOf payload).gains[cell] = payloadWord payload (24 + 2 * cell.val) ∧
    ((calValuesOf payload).unusable[cell] = true ↔
      (calValuesOf payload).gains[cell] = 0 ∨ 1023 < (calValuesOf payload).gains[cell].toNat ∨
        4000 < (calValuesOf payload).zeros[cell].toNat) := by
  refine ⟨?_, ?_, ?_⟩ <;> simp [calValuesOf, payloadCells, cellUnusable, or_assoc]

theorem Place.reload_eq (v : CalValues) (p : Place) :
    p.reload v = { p with
      refZeros := v.zeros, trims := Vector.replicate 12 0, filter := none, partialCount := 0
      live := (p.reload v).live, sticky := (p.reload v).sticky, marks := (p.reload v).marks } := by
  unfold Place.reload
  rw [Place.setFault_eq]
  rfl

theorem Place.reload_hasFault (v : CalValues) (p : Place) (k : FaultKind) :
    (p.reload v).hasFault k = true ↔ if k = .cellCal then ∃ cell : Cell, v.unusable[cell] = true else p.hasFault k = true := by
  unfold Place.reload
  rw [Place.hasFault_setFault]
  split
  · simp only [List.any_eq_true, Vector.mem_toList_iff, Vector.mem_iff_getElem]
    constructor
    · rintro ⟨b, ⟨i, hi, rfl⟩, hb⟩; exact ⟨⟨i, hi⟩, hb⟩
    · rintro ⟨cell, hb⟩; exact ⟨_, ⟨cell.val, cell.isLt, rfl⟩, hb⟩
  · exact Iff.rfl

end Sys2Proof.Machine
end

section
/-! PROOF. The end of a loading exchange (O14). -/

namespace Sys2Proof.Machine

/-! ## What ST makes of it -/

section
variable {d : Device} {c : Code}

/-- The values of a CAL_READ answer are taken into the station's record; another loading answer carries none (R26, R27). -/
def Device.takeValues (d : Device) (c : Code) (payload : List Byte) : LinkCommand → Device
  | .calRead seat => d.setStation c { d.station c with load := (d.station c).load.set seat (some (calValuesOf payload)) }
  | _ => d

theorem Device.loading_failed (cmd : LinkCommand) (k : FailKind) : d.loadingOutcome c cmd (.failed k) = d.toAbsent c := by
  cases cmd <;> rfl

theorem Device.loading_booted {cmd : LinkCommand} {a : Answer} (n : Nat) (hc : cmd ≠ .identify) (hb : a.boot = true) :
    d.loadingOutcome c cmd (.answered a n) = d.reload c (d.station c).retained (d.station c).failures := by
  cases cmd with
  | identify => exact absurd rfl hc
  | _ => exact if_pos hb

/-- Without boot flag a REFUSED makes the station ABSENT, and an ACK goes on with the values of a CAL_READ taken. -/
theorem Device.loading_answered {cmd : LinkCommand} {a : Answer} (n : Nat) (hc : cmd ≠ .identify) (hb : a.boot = false) :
    d.loadingOutcome c cmd (.answered a n) =
      if a.result = .ack then (d.takeValues c a.payload cmd).continueLoading c else d.toAbsent c := by
  have hb' : ¬ a.boot = true := by rw [hb]; decide
  cases cmd with
  | identify => exact absurd rfl hc
  | _ => exact if_neg hb'

/-- The record of a station whose loading is complete (R28). -/
def Station.loaded (s : Station) : Station := { s with state := .testing, values := s.load, test := some (.patternOn false) }

theorem Station.valuesOf_loaded {s : Station} {seat : Seat} {v : CalValues} (h : s.load[seat] = some v) : s.loaded.valuesOf seat = v := by
  have hvalues : s.loaded.values[seat] = some v := h
  rw [Station.valuesOf, hvalues, Option.getD_some]

theorem Device.loadingComplete_station (k : Code) :
    (d.loadingComplete c).station k = if k = c then (d.station c).loaded else d.station k := by
  simp [Device.loadingComplete, Station.loaded]

theorem Device.continueLoading_state (hs : (d.station c).state = .loading) :
    ((d.continueLoading c).station c).state = .loading ∨ ((d.continueLoading c).station c).state = .testing := by
  unfold Device.continueLoading
  split
  · exact .inl hs
  · exact .inr (by rw [Device.loadingComplete_station, if_pos rfl]; rfl)

/-- With the loading complete the station is TESTING, PATTERN_ON is asked for and the station's listed places are reloaded; the list
stands. -/
theorem Device.loadingComplete_settled (hlist : d.places.map Place.id = d.newList) (hs : (d.station c).state = .loading) :
    (d.loadingComplete c).settled.station c = (d.station c).loaded ∧ (d.loadingComplete c).settled.askedLast c .patternOn ∧
    (d.loadingComplete c).settled.places =
      d.places.map (Place.ofStation c (fun p => p.reload ((d.station c).loaded.valuesOf p.id.seat))) := by
  have hat : (d.loadingComplete c).station c = (d.station c).loaded := by rw [Device.loadingComplete_station, if_pos rfl]
  have helse : Device.Elsewhere c d (d.loadingComplete c) := fun k hk => ⟨by rw [Device.loadingComplete_station, if_neg hk], rfl⟩
  have hseats : (d.station c).sameSeats ((d.loadingComplete c).station c) := by
    rw [hat]; exact ⟨by simp [Station.listed, hs, Station.loaded], rfl, rfl⟩
  have hids : (d.loadingComplete c).places.map Place.id = d.places.map Place.id :=
    map_ids_of (fun p => by unfold Place.ofStation; split <;> simp [Place.reload, Place.takeZeros]) d.places
  obtain ⟨hplaces, hstations, hss, -⟩ := Device.rebuild_of_listed (Device.listed_of_elsewhere hlist helse hseats hids)
  rw [Device.settled_of_takingIn (c := c) (by rw [hat]; rfl)]
  refine ⟨by rw [hstations, hat], ?_, hplaces⟩
  unfold Device.askedLast
  rw [hss]
  exact List.getLast?_concat ..

theorem Device.takeValues_patternOff (payload : List Byte) : d.takeValues c payload .patternOff = d := rfl

theorem Device.takeValues_places (payload : List Byte) (cmd : LinkCommand) : (d.takeValues c payload cmd).places = d.places := by
  cases cmd <;> rfl

theorem Device.takeValues_state (payload : List Byte) (cmd : LinkCommand) :
    ((d.takeValues c payload cmd).station c).state = (d.station c).state := by
  cases cmd <;> simp [Device.takeValues]

/-- A loading exchange ends in LOADING, TESTING or ABSENT. -/
theorem Device.loading_notSilent {cmd : LinkCommand} (hc : cmd ≠ .identify) (hs : (d.station c).state = .loading) (o : LinkOutcome) :
    ((d.loadingOutcome c cmd o).station c).state ≠ .silent := by
  have habsent : ((d.toAbsent c).station c).state ≠ .silent := by simp [Station.absent]
  cases o with
  | failed k => rw [Device.loading_failed]; exact habsent
  | answered a n =>
    cases hb : a.boot with
    | true => rw [Device.loading_booted n hc hb]; simp [Device.reload, Station.toLoading]
    | false =>
      rw [Device.loading_answered n hc hb]
      split
      · rcases Device.continueLoading_state ((d.takeValues_state (c := c) a.payload cmd).trans hs) with h | h <;> (rw [h]; decide)
      · exact habsent

end

/-- Settles O14: each answer by the equation of its outcome (`loading_answered`), and how asking, completing, leaving and reloading stand
after the list is rebuilt. -/
theorem loadingReadsEveryPlaceAndBecomesTesting : Obligations.LoadingReadsEveryPlaceAndBecomesTesting := by
  intro i m o s x hmap hx hend hb hc hs
  obtain ⟨d, rx, hd, he⟩ := exec_of_endOf_handed hx hend
  have hs' : (d.station x.station).state = .loading := by rw [hd.station]; exact hs
  have hout : d.stationOutcome x.station x.cmd o = d.loadingOutcome x.station x.cmd o := by simp only [Device.stationOutcome, hs']
  have hhanded : d.handed { x with rx := rx } o = d.loadingOutcome x.station x.cmd o := by
    rw [← hout]
    refine Device.handed_eq_stationOutcome (x := { x with rx := rx }) hb (by rw [hs']; decide) ?_
    rw [hout]; exact Device.loading_notSilent hc hs' o
  rw [hhanded] at he
  have hlist := hd.listed hmap
  rw [← hd.station, ← hd.places]
  clear hs hout hhanded hx hend hmap
  refine ⟨_, he, rfl, fun k ho => ?failed, fun a attempts ho => ⟨fun hboot => ?boot, fun hboot hr => ?refused,
    fun hboot hr hpat seat hseat => ?off, fun seat hboot hr hread => ?read⟩⟩
  all_goals subst ho
  case failed => rw [Device.loading_failed]; exact Device.goneAbsent_toAbsent
  case boot => rw [Device.loading_booted attempts hc hboot]; exact Device.restarted_reload _ _
  case refused => rw [Device.loading_answered attempts hc hboot, if_neg hr]; exact Device.goneAbsent_toAbsent
  case off =>
    rw [Device.loading_answered attempts hc hboot, if_pos hr, hpat, Device.takeValues_patternOff, Device.continueLoading_next hseat]
    obtain ⟨hstations, hlast⟩ := Device.ask_settled (c := x.station) (cmd := .calRead seat) (b := .st) hlist
    exact ⟨hstations _, hlast⟩
  case read =>
    rw [Device.loading_answered attempts hc hboot, if_pos hr, hread]
    have hstate := (d.takeValues_state (c := x.station) a.payload (.calRead seat)).trans hs'
    have hread' : (d.takeValues x.station a.payload (.calRead seat)).station x.station =
        { d.station x.station with load := (d.station x.station).load.set seat (some (calValuesOf a.payload)) } := by
      simp [Device.takeValues]
    have hlist' : (d.takeValues x.station a.payload (.calRead seat)).places.map Place.id =
        (d.takeValues x.station a.payload (.calRead seat)).newList :=
      Device.listed_of_elsewhere hlist (d.elsewhere_setStation x.station _) (by rw [hread']; exact ⟨rfl, rfl, rfl⟩) rfl
    refine ⟨calValuesOf_cell a.payload, fun next hnext => ?_, fun hall => ?_⟩
    · rw [← hread'] at hnext ⊢
      rw [Device.continueLoading_next hnext]
      obtain ⟨hstations, hlast⟩ := Device.ask_settled (c := x.station) (cmd := .calRead next) (b := .st) hlist'
      exact ⟨hstations _, hlast⟩
    · rw [← hread'] at hall
      rw [Device.continueLoading_complete hall]
      obtain ⟨hstation, hlast, hplaces⟩ := Device.loadingComplete_settled hlist' hstate
      refine ⟨by rw [← hread']; exact hstation, hlast, fun n p q v hp hq hpc hv => ?_⟩
      rw [Device.finish_places, hplaces, List.getElem?_map, Device.takeValues_places, hp] at hq
      have hvalues : ((d.takeValues x.station a.payload (.calRead seat)).station x.station).loaded.valuesOf p.id.seat = v := by
        rw [hread']
        exact Station.valuesOf_loaded hv
      have hqp : q = p.reload v := by
        rw [← Option.some.inj hq, Place.ofStation, if_pos hpc, hvalues]
      subst hqp
      exact ⟨p.reload_eq v, p.reload_hasFault v⟩

end Sys2Proof.Machine
end

section
/-! SUPPORT. The identity checks of R25 and what they leave: a recorded identity, the stations that moved, the seat taken. -/

namespace Sys2Proof.Machine

section
variable {d : Device} {c : Code}

/-- A station that the requesting block left ABSENT, with no request waiting, is so after the list is rebuilt. -/
theorem Device.goneAbsent_settled {k : Code} (hs : d.station k = Station.absent) (hw : ∀ r ∈ d.ss.waiting, r.station ≠ k) :
    d.settled.goneAbsent k := by
  have hl : (d.station k).listed = false := by rw [hs]; rfl
  refine ⟨?_, fun r hr => ?_, Device.settled_unlisted hl⟩
  · rw [Device.settled_station, Device.rebuild_station_unlisted _ _ hl, hs]
  · rw [Device.settled_waiting] at hr
    exact hw r (Device.mem_rebuild_waiting hr)

/-- The first loading exchange of a station with no load status read (R26). -/
theorem Device.askLoading_first {n : Nat} (pattern : Bool) (hl : (d.station c).load = Vector.replicate 3 none)
    (hc : (d.station c).count = some n) (hn : 1 ≤ n) :
    d.askLoading c pattern = d.ask c (if pattern then .patternOff else .calRead 0) .st := by
  unfold Device.askLoading
  cases pattern with
  | true => rfl
  | false =>
    simp only [Device.continueLoading, Station.nextToRead_first hl hc hn]
    rfl

/-- The station enters LOADING and asks for its first exchange. -/
theorem Device.loadsFrom_ask {retained : Bool} {cmd : LinkCommand} (hs : (d.station c).state = .loading)
    (hr : (d.station c).retained = retained) (hl : (d.station c).load = Vector.replicate 3 none) (hn : cmd.notStore = true) :
    (d.ask c cmd .st).settled.loadsFrom c retained cmd := by
  refine ⟨?_, ?_, ?_, Device.askedLast_settled hn (List.getLast?_concat ..)⟩
  all_goals rw [Device.settled_station_eq]
  · exact hs
  · exact hr
  · exact hl

/-! ## Checks 2 to 4 of R25 -/

/-- The station's record with the identity of an ACK answer taken. -/
def Device.recorded (d : Device) (c : Code) (payload : List Byte) : Device := d.setStation c ((d.station c).recordIdentity payload)

/-- The identity recorded, and every station that moved away with its serial ABSENT. -/
def Device.movedIn (d : Device) (c : Code) (payload : List Byte) : Device :=
  (d.recorded c payload).dropMoved c (identitySerial payload)

/-- The record of a station that enters LOADING at a seat of its own (R26). -/
def Station.entering (s : Station) : Station := { s.toLoading false with failures := 0, restarted := false }

variable {payload : List Byte}

theorem Device.movedTo_recorded (k : Code) :
    (d.recorded c payload).movedTo c (identitySerial payload) k ↔ d.movedTo c (identitySerial payload) k := by
  by_cases hk : k = c <;> simp [Device.movedTo, Device.recorded, hk]

theorem Device.movedIn_station (k : Code) :
    (d.movedIn c payload).station k =
      if k = c then (d.station c).recordIdentity payload
      else if d.movedTo c (identitySerial payload) k then Station.absent else d.station k := by
  rw [Device.movedIn, Device.dropMoved_station]
  simp only [Device.movedTo_recorded]
  by_cases hk : k = c <;> simp [hk, Device.movedTo, Device.recorded]

theorem Device.movedIn_waiting :
    (d.movedIn c payload).ss.waiting =
      d.ss.waiting.filter (fun r => decide ¬ d.movedTo c (identitySerial payload) r.station) := by
  rw [Device.movedIn, Device.dropMoved_waiting]
  simp only [Device.movedTo_recorded]
  rfl

theorem Device.serialInUse_iff (serial : Serial) : d.serialInUse c serial = true ↔ ∃ k, d.serialHeldBy c serial k := by
  simp [Device.serialInUse, Device.serialHeldBy, or_assoc, and_comm, and_left_comm]

/-- A station that holds the serial has not moved, and one that moved does not hold it. -/
theorem Device.movedIn_serialHeldBy (k : Code) :
    (d.movedIn c payload).serialHeldBy c (identitySerial payload) k ↔ d.serialHeldBy c (identitySerial payload) k := by
  refine and_congr_right fun hk => ?_
  rw [Device.movedIn_station, if_neg hk]
  by_cases hm : d.movedTo c (identitySerial payload) k
  · rw [if_pos hm, hm.2.1]
    simp [Station.absent]
  · rw [if_neg hm]

theorem Device.takeSeat_held (pattern : Bool) (h : ∃ k, d.serialHeldBy c (identitySerial payload) k) :
    (d.recorded c payload).takeSeat c payload pattern = (d.movedIn c payload).toFaulted c := by
  refine if_pos (((d.movedIn c payload).serialInUse_iff _).2 ?_)
  simpa only [Device.movedIn_serialHeldBy] using h

/-- With no holder of its serial the station enters LOADING (R25, check 4). -/
theorem Device.takeSeat_free (pattern : Bool) (h : ∀ k, ¬ d.serialHeldBy c (identitySerial payload) k)
    (hcount : countAcceptable (identityCount payload) = true) :
    (d.recorded c payload).takeSeat c payload pattern =
      ((d.movedIn c payload).setStation c ((d.station c).recordIdentity payload).entering).ask c
        (if pattern then .patternOff else .calRead 0) .st := by
  have hself : (d.movedIn c payload).station c = (d.station c).recordIdentity payload := by
    rw [Device.movedIn_station, if_pos rfl]
  have hfree : ¬ (d.movedIn c payload).serialInUse c (identitySerial payload) = true := by
    rw [Device.serialInUse_iff]
    rintro ⟨k, hk⟩
    exact h k (Device.movedIn_serialHeldBy k |>.1 hk)
  have hlow : 1 ≤ identityCount payload := by simp [countAcceptable] at hcount; exact hcount.1
  rw [← Device.askLoading_first (n := identityCount payload) pattern]
  · rw [← hself]; exact if_neg hfree
  · rw [Device.setStation_station, if_pos rfl]; rfl
  · rw [Device.setStation_station, if_pos rfl]
    simp [Station.entering, Station.toLoading, Station.recordIdentity, hcount]
  · exact hlow

/-- The checks 2 to 4, after the list is rebuilt. -/
theorem Device.seatChecked_takeSeat {a : Answer} (hcount : countAcceptable (identityCount a.payload) = true) :
    d.seatChecked ((d.recorded c a.payload).takeSeat c a.payload a.pattern).settled c a := by
  have hself : (d.movedIn c a.payload).station c = (d.station c).recordIdentity a.payload := by
    rw [Device.movedIn_station, if_pos rfl]
  have hserial : ((d.station c).recordIdentity a.payload).serial = some (identitySerial a.payload) := rfl
  have hcounted : ((d.station c).recordIdentity a.payload).count = some (identityCount a.payload) := if_pos hcount
  have hmoved : ∀ k : Code, k ≠ c → (d.station k).state = .silent → (d.station k).serial = some (identitySerial a.payload) →
      (d.movedIn c a.payload).station k = Station.absent ∧ ∀ r ∈ (d.movedIn c a.payload).ss.waiting, r.station ≠ k := by
    intro k hk hs hser
    have hm : d.movedTo c (identitySerial a.payload) k := ⟨hk, hs, hser⟩
    refine ⟨by rw [Device.movedIn_station, if_neg hk, if_pos hm], fun r hr hrk => ?_⟩
    rw [Device.movedIn_waiting, List.mem_filter, hrk] at hr
    exact (of_decide_eq_true hr.2) hm
  by_cases hheld : ∃ k, d.serialHeldBy c (identitySerial a.payload) k
  · rw [Device.takeSeat_held a.pattern hheld]
    obtain ⟨hgone, hs, hc⟩ := Device.goneFaulted_toFaulted (d := d.movedIn c a.payload) (c := c)
    rw [hself] at hs hc
    refine ⟨hs.trans hserial, hc.trans hcounted, hgone.2.2.2, fun k hk hsil hser => ?_, fun k hk => ⟨hgone, ?_⟩, fun h => ?_⟩
    · obtain ⟨hst, hw⟩ := hmoved k hk hsil hser
      exact Device.goneAbsent_settled (by rw [(Device.elsewhere_toFaulted _ c k hk).1, hst]) hw
    · obtain ⟨hkc, -, hstate⟩ := hk
      have hstays : ¬ d.movedTo c (identitySerial a.payload) k := fun hm => by
        rw [hm.2.1] at hstate; simp at hstate
      rw [Device.settled_station_eq, (Device.elsewhere_toFaulted _ c k hkc).1, Device.movedIn_station, if_neg hkc, if_neg hstays]
      exact ⟨rfl, rfl⟩
    · obtain ⟨k, hk⟩ := hheld; exact absurd hk (h k)
  · rw [not_exists] at hheld
    rw [Device.takeSeat_free a.pattern hheld hcount]
    have hentering : ∀ cmd, (((d.movedIn c a.payload).setStation c ((d.station c).recordIdentity a.payload).entering).ask c cmd
        .st).station c = ((d.station c).recordIdentity a.payload).entering := fun cmd => by simp
    refine ⟨?_, ?_, Device.settled_unlisted (by rw [hentering]; rfl), fun k hk hsil hser => ?_, fun k hk => absurd hk (hheld k),
      fun _ => ⟨Device.loadsFrom_ask ?_ ?_ ?_ (by split <;> rfl), ?_⟩⟩
    · rw [Device.settled_station_eq, hentering]; exact hserial
    · rw [Device.settled_station_eq, hentering]; exact hcounted
    · obtain ⟨hst, hw⟩ := hmoved k hk hsil hser
      refine Device.goneAbsent_settled (by simp [hk, hst]) fun r hr => ?_
      rcases List.mem_append.1 hr with hr | hr
      · exact hw r hr
      · rw [List.mem_singleton] at hr; subst hr; exact fun h => hk h.symm
    · simp [Station.entering, Station.toLoading]
    · simp [Station.entering, Station.toLoading]
    · simp [Station.entering, Station.toLoading]
    · rw [Device.settled_station_eq, hentering]; rfl

end

end Sys2Proof.Machine
end

section
/-! PROOF. The end of an IDENTIFY that ST asked for (O13). -/

namespace Sys2Proof.Machine

/-! ## The identity answer -/

theorem identityAcceptable_iff {c : Code} {payload : List Byte} :
    identityAcceptable c payload = true ↔
      identityCode payload = c.val + 1 ∧ 1 ≤ identityCount payload ∧ identityCount payload ≤ 3 := by
  simp [identityAcceptable, countAcceptable]

theorem identityAcceptable_false {c : Code} {payload : List Byte}
    (h : identityCode payload ≠ c.val + 1 ∨ identityCount payload = 0 ∨ 3 < identityCount payload) :
    identityAcceptable c payload = false := by
  refine Bool.eq_false_iff.2 fun hacc => ?_
  obtain ⟨hcode, hlow, hhigh⟩ := identityAcceptable_iff.1 hacc
  omega

theorem countAcceptable_of_acceptable {c : Code} {payload : List Byte} (h : identityAcceptable c payload = true) :
    countAcceptable (identityCount payload) = true := by
  obtain ⟨-, hlow, hhigh⟩ := identityAcceptable_iff.1 h
  simp [countAcceptable, hlow, hhigh]

/-- An outcome that brings no ACK: the exchange failed or was refused. -/
def LinkOutcome.unanswered (o : LinkOutcome) : Prop := ∀ (a : Answer) (n : Nat), o = .answered a n → a.result ≠ .ack

section
variable {d : Device} {c : Code} {a : Answer}

/-! ## Check 1 of R25 and the checks after it, by the outcome -/

theorem Device.probe_refused (n : Nat) (hr : a.result ≠ .ack) :
    d.probeOutcome c (.answered a n) = (d.setStation c { d.station c with serial := none, count := none }).toFaulted c :=
  if_neg hr

theorem Device.probe_checked (n : Nat) (hr : a.result = .ack) :
    d.probeOutcome c (.answered a n) =
      if identityAcceptable c a.payload then (d.recorded c a.payload).takeSeat c a.payload a.pattern
      else (d.recorded c a.payload).toFaulted c := if_pos hr

theorem Device.reprobe_unanswered {o : LinkOutcome} (h : o.unanswered) : d.reprobeOutcome c o = d := by
  cases o with
  | failed k => rfl
  | answered a n => exact if_neg (h a n rfl)

theorem Device.confirm_unanswered {o : LinkOutcome} (h : o.unanswered) : d.confirmOutcome c o = d.toAbsent c := by
  cases o with
  | failed k => rfl
  | answered a n => exact if_neg (h a n rfl)

theorem Device.reprobe_checked (n : Nat) (hr : a.result = .ack) (hsame : identityAcceptable c a.payload = true →
    (d.station c).sameSeat a.payload = false) : d.reprobeOutcome c (.answered a n) = d.probeOutcome c (.answered a n) := by
  rw [Device.probe_checked n hr, Device.reprobeOutcome, if_pos hr]
  cases hacc : identityAcceptable c a.payload with
  | false => rfl
  | true => simp [hsame hacc, Device.recorded]

theorem Device.confirm_checked (n : Nat) (hr : a.result = .ack) (hsame : identityAcceptable c a.payload = true →
    (d.station c).sameSeat a.payload = false) : d.confirmOutcome c (.answered a n) = d.probeOutcome c (.answered a n) := by
  rw [Device.probe_checked n hr, Device.confirmOutcome, if_pos hr]
  cases hacc : identityAcceptable c a.payload with
  | false => rfl
  | true => simp [hsame hacc, Device.recorded]

/-- Check 1 failed: the station is FAULTED with the serial read, and with the count where that is one (R24, R25). -/
abbrev Device.badIdentity (e : Device) (c : Code) (a : Answer) : Prop :=
  e.goneFaulted c ∧ (e.station c).serial = some (identitySerial a.payload) ∧
  (1 ≤ identityCount a.payload → identityCount a.payload ≤ 3 → (e.station c).count = some (identityCount a.payload))

theorem Device.badIdentity.finish {e : Device} (h : e.badIdentity c a) : e.finish.badIdentity c a := h

theorem Device.probe_bad_settled (n : Nat) (hr : a.result = .ack) (hbad : identityAcceptable c a.payload = false) :
    (d.probeOutcome c (.answered a n)).settled.badIdentity c a := by
  rw [Device.probe_checked n hr, if_neg (by rw [hbad]; decide)]
  obtain ⟨hgone, hserial, hcount⟩ := Device.goneFaulted_toFaulted (d := d.recorded c a.payload) (c := c)
  have hself : (d.recorded c a.payload).station c = (d.station c).recordIdentity a.payload := by simp [Device.recorded]
  rw [hself] at hserial hcount
  refine ⟨hgone, hserial, fun hlow hhigh => hcount.trans (if_pos ?_)⟩
  simp [countAcceptable, hlow, hhigh]

/-- A refused probe: the station is FAULTED without serial and count (R24). -/
abbrev Device.unidentified (e : Device) (c : Code) : Prop :=
  e.goneFaulted c ∧ (e.station c).serial = none ∧ (e.station c).count = none

theorem Device.unidentified.finish {e : Device} (h : e.unidentified c) : e.finish.unidentified c := h

theorem Device.probe_refused_settled (n : Nat) (hr : a.result ≠ .ack) : (d.probeOutcome c (.answered a n)).settled.unidentified c := by
  rw [Device.probe_refused n hr]
  obtain ⟨hgone, hserial, hcount⟩ := Device.goneFaulted_toFaulted (c := c)
    (d := d.setStation c { d.station c with serial := none, count := none })
  exact ⟨hgone, hserial.trans (by simp), hcount.trans (by simp)⟩

theorem Device.probe_good_settled (n : Nat) (hr : a.result = .ack) (hgood : identityAcceptable c a.payload = true) :
    d.seatChecked (d.probeOutcome c (.answered a n)).settled c a := by
  rw [Device.probe_checked n hr, if_pos hgood]
  exact Device.seatChecked_takeSeat (countAcceptable_of_acceptable hgood)

/-- A probe ends in ABSENT, FAULTED or LOADING. -/
theorem Device.probe_notSilent (o : LinkOutcome) : ((d.probeOutcome c o).station c).state ≠ .silent := by
  have hfaulted : ∀ e : Device, ((e.toFaulted c).station c).state ≠ .silent := fun e => by simp [Device.toFaulted]
  cases o with
  | failed k =>
    show ((d.toAbsent c).station c).state ≠ .silent
    simp [Station.absent]
  | answered a n =>
    by_cases hr : a.result = .ack
    · rw [Device.probe_checked n hr]
      split
      · rename_i hacc
        by_cases hheld : ∃ k, d.serialHeldBy c (identitySerial a.payload) k
        · rw [Device.takeSeat_held a.pattern hheld]; exact hfaulted _
        · rw [Device.takeSeat_free a.pattern (not_exists.1 hheld) (countAcceptable_of_acceptable hacc)]
          simp [Station.entering, Station.toLoading]
      · exact hfaulted _
    · rw [Device.probe_refused n hr]; exact hfaulted _

/-! ## The station's own seat (R34) -/

theorem Station.sameSeat_iff {s : Station} {payload : List Byte} :
    s.sameSeat payload = true ↔ s.serial = some (identitySerial payload) ∧ s.count = some (identityCount payload) := by
  simp [Station.sameSeat]

theorem Device.ownSeat_intro (hr : a.result = .ack) (hacc : identityAcceptable c a.payload = true)
    (hsame : (d.station c).sameSeat a.payload = true) : d.ownSeat c a := by
  obtain ⟨hcode, hlow, hhigh⟩ := identityAcceptable_iff.1 hacc
  obtain ⟨hserial, hcount⟩ := Station.sameSeat_iff.1 hsame
  exact ⟨hr, hcode, hlow, hhigh, hserial, hcount⟩

/-- A SILENT station with its own seat again: loaded again from its first exchange, its places with NODE_RESTART for a boot flag. -/
def Device.reloaded (d : Device) (c : Code) (boot : Bool) : Device :=
  if boot then
    (d.setStation c { (d.station c).toLoading true with failures := 0, restarted := true }).mapPlaces
      (Place.ofStation c (fun p => p.setFault .nodeRestart true))
  else d.setStation c { (d.station c).toLoading true with failures := 0 }

theorem Device.reprobe_own (n : Nat) (h : d.ownSeat c a) :
    d.reprobeOutcome c (.answered a n) =
      if a.boot = true ∨ a.pattern = true then (d.reloaded c a.boot).ask c (if a.pattern then .patternOff else .calRead 0) .st
      else d.toActive c := by
  have hfirst : ∀ boot, (d.reloaded c boot).askLoading c a.pattern =
      (d.reloaded c boot).ask c (if a.pattern then .patternOff else .calRead 0) .st := by
    intro boot
    refine Device.askLoading_first (n := identityCount a.payload) a.pattern ?_ ?_ h.low <;>
      cases boot <;> simp [Device.reloaded, Station.toLoading, h.count]
  rw [← hfirst]
  simp only [Device.reprobeOutcome, h.ack, if_true, h.acceptable, Bool.not_true, Bool.false_eq_true, if_false, h.same]
  cases hb : a.boot <;> cases hp : a.pattern <;> simp [Device.reloaded]

theorem Device.confirm_own (n : Nat) (h : d.ownSeat c a) : d.confirmOutcome c (.answered a n) = d.askLoading c a.pattern := by
  simp only [Device.confirmOutcome, h.ack, if_true, h.acceptable, Bool.not_true, Bool.false_eq_true, if_false, h.same]

/-- The own seat loaded again, after the list is rebuilt. -/
theorem Device.reloaded_settled (boot : Bool) {cmd : LinkCommand} (hn : cmd.notStore = true) :
    ((d.reloaded c boot).ask c cmd .st).settled.loadsFrom c true cmd ∧
    (((d.reloaded c boot).ask c cmd .st).settled.station c).failures = 0 ∧
    (boot = true → ∀ q ∈ ((d.reloaded c boot).ask c cmd .st).settled.places, q.id.station = c →
      q.hasFault .nodeRestart = true) := by
  refine ⟨Device.loadsFrom_ask ?_ ?_ ?_ hn, ?_, fun hb => ?_⟩
  · cases boot <;> simp [Device.reloaded, Station.toLoading]
  · cases boot <;> simp [Device.reloaded, Station.toLoading]
  · cases boot <;> simp [Device.reloaded, Station.toLoading]
  · rw [Device.settled_station_eq]; cases boot <;> simp [Device.reloaded]
  · subst hb
    refine Device.settled_hasFault (Device.hasFault_setFault_places _ _) fun id hid => ?_
    rw [Device.newPlace_hasFault, if_pos rfl, hid]; simp [Device.reloaded]

/-- The own seat again: the station is loaded again for a boot flag or a pattern flag, and else ACTIVE (R34). -/
abbrev Device.seatAgain (e : Device) (c : Code) (a : Answer) (stamp : Nat) : Prop :=
  if a.boot = true then
    e.loadsFrom c true (if a.pattern then .patternOff else .calRead 0) ∧ (e.station c).failures = 0 ∧
    ∀ q ∈ e.places, q.id.station = c → q.hasFault .nodeRestart = true
  else if a.pattern = true then e.loadsFrom c true .patternOff ∧ (e.station c).failures = 0
  else e.goneActive c stamp

theorem Device.seatAgain.finish {e : Device} {stamp : Nat} (h : e.seatAgain c a stamp) : e.finish.seatAgain c a stamp := h

theorem Device.reprobe_own_settled (n : Nat) (h : d.ownSeat c a) :
    (d.reprobeOutcome c (.answered a n)).settled.seatAgain c a d.stamp := by
  have hnotStore : (if a.pattern then LinkCommand.patternOff else .calRead 0).notStore = true := by split <;> rfl
  obtain ⟨hloads, hfailures, hfault⟩ := Device.reloaded_settled (d := d) (c := c) a.boot hnotStore
  rw [Device.reprobe_own n h, Device.seatAgain]
  by_cases hboot : a.boot = true
  · rw [if_pos hboot, if_pos (.inl hboot)]
    exact ⟨hloads, hfailures, hfault hboot⟩
  · rw [if_neg hboot]
    by_cases hpattern : a.pattern = true
    · rw [if_pos hpattern, if_pos (.inr hpattern)]
      rw [if_pos hpattern] at hloads hfailures ⊢
      exact ⟨hloads, hfailures⟩
    · rw [if_neg hpattern, if_neg (not_or.2 ⟨hboot, hpattern⟩)]
      exact Device.goneActive_toActive

theorem Device.reprobe_own_notSilent (n : Nat) (h : d.ownSeat c a) :
    ((d.reprobeOutcome c (.answered a n)).station c).state ≠ .silent := by
  rw [Device.reprobe_own n h]
  split
  · cases a.boot <;> simp [Device.reloaded, Station.toLoading]
  · simp [Device.toActive]

theorem Device.askLoading_retained (pattern : Bool) : ((d.askLoading c pattern).station c).retained = (d.station c).retained := by
  unfold Device.askLoading Device.continueLoading
  repeat' split
  · rfl
  · rfl
  · rw [Device.loadingComplete_station, if_pos rfl]; rfl

theorem Device.askLoading_notSilent (pattern : Bool) (hs : (d.station c).state = .loading) :
    ((d.askLoading c pattern).station c).state ≠ .silent := by
  unfold Device.askLoading
  split
  · show (d.station c).state ≠ .silent
    rw [hs]; decide
  · rcases Device.continueLoading_state hs with h | h <;> (rw [h]; decide)

/-- A confirmed seat goes on loading, from `d` to `e` (R26). -/
abbrev Device.seatConfirmed (d e : Device) (c : Code) (pattern : Bool) : Prop :=
  (pattern = true → (e.station c).state = .loading ∧ e.askedLast c .patternOff) ∧
  (pattern = false → ∀ seat : Seat, (d.station c).readsNext seat →
    (e.station c).state = .loading ∧ e.askedLast c (.calRead seat)) ∧
  (e.station c).retained = (d.station c).retained

theorem Device.seatConfirmed.finish {e : Device} {pattern : Bool} (h : d.seatConfirmed e c pattern) :
    d.seatConfirmed e.finish c pattern := h

theorem Device.confirm_own_settled (pattern : Bool) (hs : (d.station c).state = .loading) :
    d.seatConfirmed (d.askLoading c pattern).settled c pattern := by
  have hasks : ∀ cmd : LinkCommand, cmd.notStore = true →
      ((d.ask c cmd .st).settled.station c).state = .loading ∧ (d.ask c cmd .st).settled.askedLast c cmd := fun cmd hn =>
    ⟨by rw [Device.settled_station_eq]; exact hs, Device.askedLast_settled hn (List.getLast?_concat ..)⟩
  refine ⟨fun hp => ?_, fun hp seat hseat => ?_, ?_⟩
  · subst hp; exact hasks .patternOff rfl
  · subst hp
    have hnext : d.askLoading c false = d.ask c (.calRead seat) .st := Device.continueLoading_next hseat
    rw [hnext]; exact hasks _ rfl
  · rw [Device.settled_station_eq]; exact Device.askLoading_retained pattern

/-! ## The identity checks read little of the device before -/

theorem Device.seatChecked.finish {e : Device} (h : d.seatChecked e c a) : d.seatChecked e.finish c a := h

/-- What the checks read of another station stays when an ABSENT one becomes PROBING. -/
theorem Device.seatChecked.of_stations {d' e : Device} (h : d'.seatChecked e c a)
    (hst : ∀ k, d'.station k = d.station k ∨ (d.station k).state = .absent ∧ (d'.station k).state = .probing) :
    d.seatChecked e c a := by
  obtain ⟨hserial, hcount, hplaces, hmoved, hheld, hfree⟩ := h
  have hholds : ∀ k, d'.serialHeldBy c (identitySerial a.payload) k ↔ d.serialHeldBy c (identitySerial a.payload) k := by
    intro k
    rcases hst k with h | ⟨h, h'⟩
    · rw [Device.serialHeldBy, h]
    · simp [Device.serialHeldBy, h, h']
  refine ⟨hserial, hcount, hplaces, fun k hk hs hser => ?_, fun k hk => ?_, fun hno => hfree fun k => mt (hholds k).1 (hno k)⟩
  · rcases hst k with h | ⟨h, -⟩
    · exact hmoved k hk (by rw [h]; exact hs) (by rw [h]; exact hser)
    · rw [h] at hs; cases hs
  · rcases hst k with h | ⟨h, -⟩
    · rw [← h]; exact hheld k ((hholds k).2 hk)
    · obtain ⟨-, -, hstate⟩ := hk
      rw [h] at hstate; simp at hstate

end

/-! ## The start-up probe sequence (R39) -/

/-- From `d` to `e` ST has worked on the station `c`: the start-up probe sequence stays, every other station but a SILENT one keeps its
record and its waiting requests, and what is asked for is for `c`. -/
structure Device.WorksOn (c : Code) (d e : Device) : Prop where
  startup : e.st.startup = d.st.startup
  station : ∀ k, k ≠ c → (d.station k).state ≠ .silent → e.station k = d.station k
  waiting : ∃ (keep : LinkRequest → Bool) (asked : List LinkRequest), e.ss.waiting = d.ss.waiting.filter keep ++ asked ∧
    (∀ r ∈ asked, r.station = c) ∧ ∀ r, r.station ≠ c → (d.station r.station).state ≠ .silent → keep r = true

section
variable {d e f : Device} {c : Code}

theorem Device.WorksOn.trans (h : Device.WorksOn c d e) (h' : Device.WorksOn c e f) : Device.WorksOn c d f := by
  obtain ⟨hup, hst, keep, asked, hw, hasked, hkeep⟩ := h
  obtain ⟨hup', hst', keep', asked', hw', hasked', hkeep'⟩ := h'
  refine ⟨hup'.trans hup, fun k hk hs => ?_, fun r => keep' r && keep r, asked.filter keep' ++ asked', ?_, fun r hr => ?_,
    fun r hr hs => ?_⟩
  · rw [hst' k hk (by rw [hst k hk hs]; exact hs), hst k hk hs]
  · rw [hw', hw, List.filter_append, List.filter_filter, List.append_assoc]
  · rcases List.mem_append.1 hr with hr | hr
    · exact hasked r (List.mem_of_mem_filter hr)
    · exact hasked' r hr
  · exact Bool.and_eq_true_iff.2 ⟨hkeep' r hr (by rw [hst _ hr hs]; exact hs), hkeep r hr hs⟩

/-- Work that asks for nothing and withdraws nothing. -/
theorem Device.worksOn_of_waiting (h1 : e.st.startup = d.st.startup) (h2 : ∀ k, k ≠ c → e.station k = d.station k)
    (h3 : e.ss.waiting = d.ss.waiting) : Device.WorksOn c d e :=
  ⟨h1, fun k hk _ => h2 k hk, fun _ => true, [], by simp [h3], by simp, fun _ _ _ => rfl⟩

theorem Device.worksOn_setStation (d : Device) (c : Code) (s : Station) : Device.WorksOn c d (d.setStation c s) :=
  Device.worksOn_of_waiting rfl (fun k hk => by simp [hk]) rfl

theorem Device.worksOn_ask (d : Device) (c : Code) (cmd : LinkCommand) (b : Block) : Device.WorksOn c d (d.ask c cmd b) :=
  ⟨rfl, fun _ _ _ => rfl, fun _ => true, [{ station := c, cmd := cmd, block := b }], by simp, by simp, fun _ _ _ => rfl⟩

theorem Device.worksOn_toAbsent (d : Device) (c : Code) : Device.WorksOn c d (d.toAbsent c) :=
  ⟨rfl, fun k hk _ => by simp [hk], fun r => r.station ≠ c, [], by simp [Device.toAbsent_waiting], by simp,
    fun r hr _ => by simp [hr]⟩

theorem Device.dropMovedIn_startup (serial : Serial) (l : List Code) :
    (d.dropMovedIn c serial l).st.startup = d.st.startup := by
  induction l generalizing d with
  | nil => rfl
  | cons k l ih => rw [Device.dropMovedIn_cons, ih]; split <;> rfl

theorem Device.worksOn_dropMoved (d : Device) (c : Code) (serial : Serial) : Device.WorksOn c d (d.dropMoved c serial) :=
  ⟨Device.dropMovedIn_startup serial _, fun k _ hs => by rw [Device.dropMoved_station, if_neg]; exact fun h => hs h.2.1,
    fun r => decide ¬ d.movedTo c serial r.station, [], by rw [Device.dropMoved_waiting, List.append_nil], by simp,
    fun r _ hs => decide_eq_true fun h => hs h.2.1⟩

theorem Device.worksOn_probeOutcome (d : Device) (c : Code) (o : LinkOutcome) : Device.WorksOn c d (d.probeOutcome c o) := by
  cases o with
  | failed k => exact d.worksOn_toAbsent c
  | answered a n =>
    by_cases hr : a.result = .ack
    · have hrecorded : Device.WorksOn c d (d.recorded c a.payload) := d.worksOn_setStation c _
      have hmoved : Device.WorksOn c d (d.movedIn c a.payload) := hrecorded.trans (Device.worksOn_dropMoved _ c _)
      rw [Device.probe_checked n hr]
      split
      · rename_i hacc
        by_cases hheld : ∃ k, d.serialHeldBy c (identitySerial a.payload) k
        · rw [Device.takeSeat_held a.pattern hheld]
          exact hmoved.trans (Device.worksOn_setStation _ c _)
        · rw [Device.takeSeat_free a.pattern (not_exists.1 hheld) (countAcceptable_of_acceptable hacc)]
          exact hmoved.trans ((Device.worksOn_setStation _ c _).trans (Device.worksOn_ask _ c _ _))
      · exact hrecorded.trans (Device.worksOn_setStation _ c _)
    · rw [Device.probe_refused n hr]
      exact (d.worksOn_setStation c _).trans (Device.worksOn_setStation _ c _)

/-- The IDENTIFY of a station waits, with requests of `c` alone behind it. -/
def Device.probeAsked (c k : Code) (d : Device) : Prop :=
  ∃ before after : List LinkRequest,
    d.ss.waiting = before ++ { station := k, cmd := .identify, block := .st } :: after ∧ ∀ r ∈ after, r.station = c

theorem Device.probeAsked.worksOn {k : Code} (h : d.probeAsked c k) (hw : Device.WorksOn c d e) (hk : k ≠ c)
    (hs : (d.station k).state ≠ .silent) : e.probeAsked c k := by
  obtain ⟨before, after, hwaiting, hafter⟩ := h
  obtain ⟨-, -, keep, asked, he, hasked, hkeep⟩ := hw
  refine ⟨before.filter keep, after.filter keep ++ asked, ?_, fun r hr => ?_⟩
  · rw [he, hwaiting, List.filter_append, List.filter_cons_of_pos (hkeep _ hk hs), List.append_assoc, List.cons_append]
  · rcases List.mem_append.1 hr with hr | hr
    · exact hafter r (List.mem_of_mem_filter hr)
    · exact hasked r hr

theorem Device.probeAsked.settled {k : Code} (h : d.probeAsked c k) : d.settled.probeAsked c k := by
  obtain ⟨before, after, hwaiting, hafter⟩ := h
  unfold Device.probeAsked
  rw [Device.settled_waiting]
  rcases d.rebuild_waiting with hw | ⟨e, he, hw⟩
  · exact ⟨before, after, hw.trans hwaiting, hafter⟩
  · rw [hw, Device.pruneStores, he, hwaiting]
    simp only [List.filter_append, List.filter_cons_of_pos]
    exact ⟨_, _, rfl, fun r hr => hafter r (List.mem_of_mem_filter hr)⟩

theorem Device.settled_startup (d : Device) : d.settled.st.startup = d.st.startup := by
  have hrebuild : d.rebuild.st.startup = d.st.startup := by
    simp only [Device.rebuild, Device.setGlobal_st]; split <;> rfl
  rw [← hrebuild]
  exact d.settled_of_rebuild (·.st.startup) fun e => by rw [e.completeStartup_st]

/-- The start-up probe sequence goes on to the next station code. -/
def Device.startupAt (d : Device) (k : Option Code) : Device := { d with st := { d.st with startup := k } }

theorem Device.startupAt_station (k : Option Code) (j : Code) : (d.startupAt k).station j = d.station j := rfl

theorem Device.startupNext_eq (hup : d.st.startup = some c) (hs : (d.station c).state = .probing) :
    d.startupNext c = match nextCode c with
      | some k => (d.startupAt (nextCode c)).askProbe k
      | none => d.startupAt (nextCode c) := if_pos ⟨hup, hs⟩

theorem Device.askProbe_startup (k : Code) : (d.askProbe k).st.startup = d.st.startup := by
  unfold Device.askProbe; simp only; split <;> rfl

/-- ST goes on to the next station code and asks for its probe, an ABSENT station becoming PROBING (R39). -/
theorem Device.startupNext_probes (hup : d.st.startup = some c) (hs : (d.station c).state = .probing) :
    (d.startupNext c).st.startup = nextCode c ∧
    ∀ k, nextCode c = some k → (d.station k).state = .absent →
      ((d.startupNext c).station k).state = .probing ∧ (d.startupNext c).probeAsked c k := by
  rw [Device.startupNext_eq hup hs]
  cases hnext : nextCode c with
  | none => exact ⟨rfl, fun k hk => nomatch hk⟩
  | some j =>
    refine ⟨Device.askProbe_startup j, fun k hk ha => ?_⟩
    obtain rfl := Option.some.inj hk
    refine ⟨?_, d.ss.waiting, [], by rw [Device.askProbe_waiting]; rfl, by simp⟩
    rw [Device.askProbe_station, Device.startupAt_station, if_pos ⟨rfl, ha⟩]

theorem Device.startupNext_stations (d : Device) (c k : Code) :
    (d.startupNext c).station k = d.station k ∨ (d.station k).state = .absent ∧ ((d.startupNext c).station k).state = .probing := by
  by_cases h : d.st.startup = some c ∧ (d.station c).state = .probing
  · rw [Device.startupNext_eq h.1 h.2]
    split
    · rename_i j _
      rw [Device.askProbe_station, Device.startupAt_station, Device.startupAt_station]
      by_cases hk : k = j ∧ (d.station j).state = .absent
      · rw [if_pos hk, hk.1]; exact .inr ⟨hk.2, rfl⟩
      · rw [if_neg hk]; exact .inl rfl
    · exact .inl rfl
  · have hsame : d.startupNext c = d := if_neg h
    rw [hsame]; exact .inl rfl

end

/-! ## The end of the exchange -/

section
variable {d : Device} {x : Exchange} {o : LinkOutcome}

/-- A probe's outcome, after the next start-up probe has been asked for (R23, R24, R39). -/
theorem Device.handed_probe (hb : x.block = .st) (hs : (d.station x.station).state = .probing ∨ (d.station x.station).state = .faulted) :
    d.handed x o = (d.startupNext x.station).probeOutcome x.station o := by
  have hkept : (d.startupNext x.station).station x.station = d.station x.station := by
    rcases d.startupNext_stations x.station x.station with h | ⟨h, -⟩
    · exact h
    · rcases hs with hs | hs <;> (rw [hs] at h; cases h)
  have hd : d.deliver x o = (d.startupNext x.station).probeOutcome x.station o := by
    simp only [Device.deliver, hb, Device.stationOutcome, hkept]
    rcases hs with hs | hs <;> rw [hs]
  rw [Device.handed, if_pos hb, hd]
  exact if_neg fun h => Device.probe_notSilent o h.1

/-- An outcome that does not leave the station SILENT, of a SILENT or LOADING station. -/
theorem Device.handed_identify {e : Device} (hb : x.block = .st) (hc : x.cmd = .identify)
    (hs : (d.station x.station).state = .silent ∧ d.reprobeOutcome x.station o = e ∨
      (d.station x.station).state = .loading ∧ d.confirmOutcome x.station o = e)
    (hn : (e.station x.station).state ≠ .silent) : d.handed x o = e := by
  have hout : d.stationOutcome x.station x.cmd o = e := by
    rcases hs with ⟨hs, he⟩ | ⟨hs, he⟩
    · simp only [Device.stationOutcome, hs, he]
    · simp only [Device.stationOutcome, hs, Device.loadingOutcome, hc, he]
  rw [← hout]
  refine Device.handed_eq_stationOutcome hb ?_ (by rw [hout]; exact hn)
  rcases hs with ⟨hs, -⟩ | ⟨hs, -⟩ <;> (rw [hs]; decide)

/-- A re-probe without an ACK leaves the station SILENT, but for an expiry that waited (R34, R35). -/
theorem Device.handed_reprobe_unanswered (hb : x.block = .st) (hs : (d.station x.station).state = .silent) (ho : o.unanswered) :
    d.handed x o =
      if ∃ since ∈ (d.station x.station).silentSince, since + 2000 ≤ d.time.now then d.toAbsent x.station else d := by
  have hkept : d.startupNext x.station = d := if_neg fun h => by rw [hs] at h; cases h.2
  have hd : d.deliver x o = d := by
    simp only [Device.deliver, hb, hkept, Device.stationOutcome, hs, Device.reprobe_unanswered ho]
  rw [Device.handed, if_pos hb, hd]
  refine if_congr ?_ rfl rfl
  simp [hs, Device.passed, Option.any_eq_true]

end

/-- Settles O13: a probe by `probeOutcome`'s cases, the start-up sequence by what ST's work on a station leaves (`WorksOn`); a re-probe and
a confirming IDENTIFY by the station's own seat, and else as a probe (`reprobe_checked`, `confirm_checked`). -/
theorem identifyOutcomesFollowTheIdentityChecks : Obligations.IdentifyOutcomesFollowTheIdentityChecks := by
  refine ⟨fun i m o s x hx hend hb hc hs => ?probe, fun i m o s x hx hend hb hc hs => ?identify⟩
  case probe =>
    obtain ⟨d, rx, hd, he⟩ := exec_of_endOf_handed hx hend
    rw [Device.handed_probe (x := { x with rx := rx }) hb (by rw [hd.station]; exact hs)] at he
    refine ⟨_, he, rfl, fun k ho => ?_, fun a attempts ho => ⟨fun hr => ?_, fun hr hbad => ?_, fun hr hcode hlow hhigh => ?_⟩,
      fun hup hprobing => ?_⟩
    · subst ho; exact Device.goneAbsent_toAbsent
    · subst ho
      exact (Device.probe_refused_settled attempts hr).finish
    · subst ho; exact (Device.probe_bad_settled attempts hr (identityAcceptable_false hbad)).finish
    · subst ho
      refine (Device.probe_good_settled attempts hr (identityAcceptable_iff.2 ⟨hcode, hlow, hhigh⟩)).finish.of_stations fun k => ?_
      rw [← hd.station]
      exact d.startupNext_stations x.station k
    · obtain ⟨hnext, hprobes⟩ := Device.startupNext_probes (d := d) (c := x.station) (by rw [hd.st]; exact hup)
        (by rw [hd.station]; exact hprobing)
      have hworks := (d.startupNext x.station).worksOn_probeOutcome x.station o
      have hend : ((d.startupNext x.station).probeOutcome x.station o).settled.finish.st.startup = nextCode x.station := by
        rw [Device.finish_st, Device.settled_startup, hworks.startup, hnext]
      refine ⟨fun h11 => hend.trans (dif_neg (by omega)), fun k hk => ?_⟩
      have hcode : nextCode x.station = some k := by
        unfold nextCode; rw [dif_pos (by omega)]; exact congrArg some (Fin.ext hk.symm)
      refine ⟨hend.trans hcode, fun habsent => ?_⟩
      have hkc : k ≠ x.station := fun h => by rw [h] at hk; omega
      obtain ⟨hprobing', hasked⟩ := hprobes k hcode (by rw [hd.station]; exact habsent)
      have hns : ((d.startupNext x.station).station k).state ≠ .silent := by rw [hprobing']; decide
      refine ⟨?_, (hasked.worksOn hworks hkc hns).settled⟩
      rw [Device.finish_station, Device.settled_station_eq, hworks.station k hkc hns]
      exact hprobing'
  case identify =>
    obtain ⟨d, rx, hd, he⟩ := exec_of_endOf_handed hx hend
    rw [← hd.station] at hs ⊢
    rw [← hd.now, ← hd.stamp]
    refine ⟨_, he, rfl, fun ho => ⟨fun hl => ?lost, fun hsil => ?unanswered⟩, fun a attempts ho => ?answered⟩
    case lost =>
      rw [Device.handed_identify (x := { x with rx := rx }) hb hc (.inr ⟨hl, Device.confirm_unanswered ho⟩) (by simp [Station.absent])]
      exact Device.goneAbsent_toAbsent
    case unanswered =>
      rw [Device.handed_reprobe_unanswered (x := { x with rx := rx }) hb hsil ho]
      by_cases hexp : ∃ since ∈ (d.station x.station).silentSince, since + 2000 ≤ d.time.now
      · rw [if_pos hexp, if_pos hexp]; exact Device.goneAbsent_toAbsent
      · rw [if_neg hexp, if_neg hexp, Device.finish_station, Device.settled_station_eq]
        exact ⟨hsil, rfl, rfl, rfl, rfl⟩
    case answered =>
      subst ho
      have hchecked : ∀ (hr : a.result = .ack),
          (identityAcceptable x.station a.payload = true → (d.station x.station).sameSeat a.payload = false) →
          d.handed { x with rx := rx } (.answered a attempts) = d.probeOutcome x.station (.answered a attempts) := by
        intro hr hother
        refine Device.handed_identify (x := { x with rx := rx }) hb hc ?_ (Device.probe_notSilent _)
        exact hs.imp (fun h => ⟨h, Device.reprobe_checked attempts hr hother⟩)
          (fun h => ⟨h, Device.confirm_checked attempts hr hother⟩)
      intro hr
      refine ⟨fun hbad => ?bad, fun hcode hlow hhigh => ?good⟩
      case bad =>
        have hbad' := identityAcceptable_false hbad
        rw [hchecked hr fun h => by rw [hbad'] at h; cases h]
        obtain ⟨hgone, hserial, -⟩ := (Device.probe_bad_settled (d := d) attempts hr hbad').finish
        exact ⟨hgone, hserial⟩
      case good =>
        have hgood := identityAcceptable_iff.2 ⟨hcode, hlow, hhigh⟩
        by_cases hsame : (d.station x.station).sameSeat a.payload = true
        · rw [if_pos (Station.sameSeat_iff.1 hsame)]
          have hown := Device.ownSeat_intro hr hgood hsame
          refine ⟨fun hsil => ?_, fun hl => ?_⟩
          · rw [Device.handed_identify (x := { x with rx := rx }) hb hc (.inl ⟨hsil, rfl⟩)
              (Device.reprobe_own_notSilent attempts hown)]
            exact (Device.reprobe_own_settled attempts hown).finish
          · rw [Device.handed_identify (x := { x with rx := rx }) hb hc (.inr ⟨hl, Device.confirm_own attempts hown⟩)
              (Device.askLoading_notSilent a.pattern hl)]
            exact (Device.confirm_own_settled a.pattern hl).finish
        · rw [if_neg (mt Station.sameSeat_iff.2 hsame), hchecked hr fun _ => Bool.eq_false_iff.2 hsame]
          exact (Device.probe_good_settled attempts hr hgood).finish.of_stations fun k => .inl (hd.station k)

end Sys2Proof.Machine
end

section
/-! SUPPORT. CU's part of a pass, and the end of a CAL_STORE, on one place (R127 to R136). -/

namespace Sys2Proof.Machine

/-! ## What a pass leaves to CU -/

/-- A place at a pass as LU, CL and RU leave it to CU (R111). -/
def Place.passSeen (e : Env) (v : CalValues) (r : Readings) (p : Place) : Place :=
  ((((((({ p with age := 0, fresh := true }).setFault .nodeSilent false).loadPass e.params.filterShift v r).noteBelt
    p.buckle).passEvaluation e).evalVerdict e).noteFastened e).toStage e

section
variable (e : Env) (v : CalValues) (r : Readings) (p : Place)

theorem Place.pass_eq :
    p.pass e v r = (((p.passSeen e v r).calSample e v r).driftTrim e v r).markReminder e p e := rfl

@[simp] theorem Place.passSeen_cal : (p.passSeen e v r).cal = p.cal := by
  simp [Place.passSeen, Place.loadPass, Place.loadFields]

@[simp] theorem Place.passSeen_refZeros : (p.passSeen e v r).refZeros = p.refZeros := by
  simp [Place.passSeen, Place.loadPass, Place.loadFields]

@[simp] theorem Place.passSeen_trims : (p.passSeen e v r).trims = p.trims := by
  simp [Place.passSeen, Place.loadPass, Place.loadFields]

theorem Place.hasFault_loadFaults {k : FaultKind} (hk : k = .driftLimit ∨ k = .calStoreFail) :
    (p.loadFaults v r).hasFault k = p.hasFault k := by
  unfold Place.loadFaults
  simp only [Place.hasFault_setFault]
  rcases hk with rfl | rfl <;> simp

theorem Place.passSeen_driftLimit : (p.passSeen e v r).hasFault .driftLimit = p.hasFault .driftLimit := by
  have hload : (p.passSeen e v r).hasFault .driftLimit =
      ((({ p with age := 0, fresh := true } : Place).setFault .nodeSilent false).loadPass e.params.filterShift v r).hasFault
        .driftLimit := Place.hasFault_of_live (by simp [Place.passSeen]) _
  rw [hload, Place.loadPass, Place.hasFault_loadFaults _ _ _ (.inl rfl)]
  exact (Place.hasFault_setFault _ _ _ _).trans (if_neg (by decide))

/-- The class after a persistence step: as before with the trim marks as they were, or another, with no trim mark fallen (R106, R134). -/
theorem Place.persist_trim (c : Class) :
    ((p.persist e c).reported = p.reported ∧ (p.persist e c).emptySince = p.emptySince ∧ (p.persist e c).trimDue = p.trimDue) ∨
    ((p.persist e c).reported ≠ p.reported ∧ (p.persist e c).trimDue = false) := by
  unfold Place.persist
  generalize (if p.pendingClass = some c then p.count + 1 else 1) = n
  split
  · exact .inl ⟨rfl, rfl, rfl⟩
  · rename_i hc
    simp only
    split
    · exact .inr ⟨hc, rfl⟩
    · exact .inl ⟨rfl, rfl, rfl⟩

theorem Place.passSeen_trim :
    ((p.passSeen e v r).reported = p.reported ∧ (p.passSeen e v r).emptySince = p.emptySince ∧
      (p.passSeen e v r).trimDue = p.trimDue) ∨
    ((p.passSeen e v r).reported ≠ p.reported ∧ (p.passSeen e v r).trimDue = false) := by
  have hclassed : ∀ q : Place, ((q.passEvaluation e).reported = q.reported ∧ (q.passEvaluation e).emptySince = q.emptySince ∧
      (q.passEvaluation e).trimDue = q.trimDue) ∨
      ((q.passEvaluation e).reported ≠ q.reported ∧ (q.passEvaluation e).trimDue = false) := by
    intro q
    unfold Place.passEvaluation
    split
    · exact q.persist_trim e _
    · exact .inl ⟨rfl, rfl, rfl⟩
  have h := hclassed (((({ p with age := 0, fresh := true } : Place).setFault .nodeSilent false).loadPass e.params.filterShift v r).noteBelt
    p.buckle)
  simpa [Place.passSeen, Place.loadPass, Place.loadFields] using h

/-! ## The sample (R127, R130) -/

/-- The calibration after a sample, its new zeros formed at the 32nd. -/
def CalRun.sampled (v : CalValues) (r : Readings) (refZeros : Vector Word 12) (run : CalRun) : CalRun :=
  { run with
    samples := run.samples + 1, sums := addSample v r run.sums
    newZeros := if run.samples + 1 = 32 then some (newZerosOf v (addSample v r run.sums) refZeros) else none }

variable {e v r p}

theorem Place.calSample_idle (h : p.calRunning = false) : p.calSample e v r = p := by
  unfold Place.calSample
  split
  · rfl
  · rename_i run hc; simp [Place.calRunning, hc] at h

variable {run : CalRun} (hc : p.cal = .running run) (hz : run.newZeros = none)
include hc hz

theorem Place.calSample_unreadable (hu : cellUnreadable v r = true) : p.calSample e v r = p.endCal e .abortedCell := by
  unfold Place.calSample
  rw [hc]
  simp [hz, hu]

theorem Place.calSample_disturbed (hu : cellUnreadable v r = false) (hf : run.forced = false) (hd : p.disturbs e = true) :
    p.calSample e v r = p.endCal e .abortedDisturbed := by
  unfold Place.calSample
  rw [hc]
  simp [hz, hu, hf, hd]

theorem Place.calSample_sampled (hu : cellUnreadable v r = false) (hd : run.forced = true ∨ p.disturbs e = false) :
    p.calSample e v r = { p with cal := .running (run.sampled v r p.refZeros) } := by
  have hn : (!run.forced && p.disturbs e) = false := by rcases hd with h | h <;> simp [h]
  unfold Place.calSample
  rw [hc]
  simp [hz, hu, hn, CalRun.sampled]

end

section
variable {e : Env} {v : CalValues} {r : Readings} {p : Place}

/-- After the end of a calibration no trim mark has fallen (R134). -/
theorem Place.endCal_trimDue (e : Env) (st : CalEnd) (p : Place) : (p.endCal e st).trimDue = false := by
  have hrow : ∀ q : Place, q.trimDue = false → (q.rowOneEvaluation e).trimDue = false := by
    intro q hq
    unfold Place.rowOneEvaluation
    split
    · rcases q.persist_trim e .unknown with ⟨-, -, h⟩ | ⟨-, h⟩
      · rw [h, hq]
      · exact h
    · exact hq
  unfold Place.endCal
  simp only [Place.toStage_trimDue, Place.evalVerdict_trimDue]
  exact hrow _ rfl

/-- A place whose calibration runs at a pass is not trim-eligible after the sample, or no mark has fallen (R134). -/
theorem Place.calSample_notTrimmed (h : p.calRunning = true) :
    ((p.calSample e v r).trimEligible e && (p.calSample e v r).trimDue) = false := by
  have hruns : ∀ q : Place, q.calRunning = true → (q.trimEligible e && q.trimDue) = false := fun q hq => by
    simp [Place.trimEligible, hq]
  unfold Place.calSample
  split
  · exact hruns p h
  · split
    · exact hruns p h
    · split
      · rw [Place.endCal_trimDue, Bool.and_false]
      · split
        · rw [Place.endCal_trimDue, Bool.and_false]
        · exact hruns _ rfl

end

/-! ## Marks at the end of a calibration (R132, R154) -/

section
variable {p q s : Place}

theorem Place.marksGrow.trans (h : p.marksGrow q) (h' : q.marksGrow s) : p.marksGrow s := fun port k hk => h' port k (h port k hk)

theorem Place.marksGrow_rowOneEvaluation (e : Env) (p : Place) : p.marksGrow (p.rowOneEvaluation e) := by
  unfold Place.rowOneEvaluation
  split
  · unfold Place.persist
    generalize (if p.pendingClass = some Class.unknown then p.count + 1 else 1) = n
    split
    · exact fun _ _ h => h
    · simp only
      split
      · exact fun port k h => Place.marksGrow_mark _ _ port k h
      · exact fun _ _ h => h
  · exact fun _ _ h => h

theorem Place.marksGrow_driftTrim (e : Env) (v : CalValues) (r : Readings) (p : Place) : p.marksGrow (p.driftTrim e v r) := by
  unfold Place.driftTrim
  split
  · unfold Place.trimStep; simp only
    split
    · exact fun port k h => Place.marksGrow_setFault _ _ _ port k h
    · exact fun _ _ h => h
  · exact fun _ _ h => h

/-- The end of a calibration sets CAL at both ports. -/
theorem Place.marked_endCal (e : Env) (st : CalEnd) (p : Place) (port : Port) : (p.endCal e st).marked port .cal = true := by
  refine Place.marksGrow_evalVerdict e _ port .cal (Place.marksGrow_rowOneEvaluation e _ port .cal ?_)
  show (({ p with cal := .ended st }).mark .cal).marked port .cal = true
  rw [Place.marked_mark, decide_eq_true rfl, Bool.or_true]

end

/-! ## The calibration after a pass -/

section
variable {e : Env} {v : CalValues} {r : Readings} {p : Place}

theorem Place.pass_cal : (p.pass e v r).cal = ((p.passSeen e v r).calSample e v r).cal := by simp [Place.pass_eq]

theorem Place.pass_total : (p.pass e v r).total = (p.passSeen e v r).total := by simp [Place.pass_eq]

theorem Place.pass_refZeros : (p.pass e v r).refZeros = p.refZeros := by simp [Place.pass_eq]

theorem Place.marksGrow_pass : ((p.passSeen e v r).calSample e v r).marksGrow (p.pass e v r) :=
  (Place.marksGrow_driftTrim e v r _).trans (Place.marksGrow_markReminder _ e p e)

/-- A sample that ends the calibration leaves it ended, with CAL at both ports. -/
theorem Place.pass_ended {st : CalEnd} (h : (p.passSeen e v r).calSample e v r = (p.passSeen e v r).endCal e st) :
    (p.pass e v r).cal = .ended st ∧ ∀ port, (p.pass e v r).marked port .cal = true := by
  refine ⟨by rw [Place.pass_cal, h, Place.endCal_eq], fun port => Place.marksGrow_pass port .cal ?_⟩
  rw [h]; exact Place.marked_endCal e st _ port

variable {run : CalRun} (hc : p.cal = .running run) (hz : run.newZeros = none)
include hc hz

theorem Place.pass_unreadable (hu : cellUnreadable v r = true) :
    (p.pass e v r).cal = .ended .abortedCell ∧ ∀ port, (p.pass e v r).marked port .cal = true :=
  Place.pass_ended (Place.calSample_unreadable ((p.passSeen_cal e v r).trans hc) hz hu)

theorem Place.pass_disturbed (hu : cellUnreadable v r = false) (hf : run.forced = false) (hd : (p.pass e v r).disturbs e = true) :
    (p.pass e v r).cal = .ended .abortedDisturbed ∧ ∀ port, (p.pass e v r).marked port .cal = true := by
  rw [Place.disturbs, Place.pass_total] at hd
  exact Place.pass_ended (Place.calSample_disturbed ((p.passSeen_cal e v r).trans hc) hz hu hf hd)

theorem Place.pass_sampled (hu : cellUnreadable v r = false) (hd : run.forced = true ∨ (p.pass e v r).disturbs e = false) :
    (p.pass e v r).cal = .running (run.sampled v r p.refZeros) := by
  rw [Place.disturbs, Place.pass_total] at hd
  rw [Place.pass_cal, Place.calSample_sampled ((p.passSeen_cal e v r).trans hc) hz hu hd, Place.passSeen_refZeros]

end

/-! ## The trim at a pass (R134 to R136) -/

section
variable {e : Env} {v : CalValues} {r : Readings} {p : Place}

theorem cellUnreadable_iff :
    cellUnreadable v r = true ↔
      ∃ i : Cell, v.unusable[i] = false ∧ (cellClass r.words[i] = .opened ∨ cellClass r.words[i] = .saturated) := by
  simp [cellUnreadable]

/-- A trim step is due at a pass: the place is eligible, a mark has fallen, and the pass leaves it reported EMPTY (R134). -/
abbrev Place.trimsAt (e : Env) (p q : Place) : Prop :=
  p.calRunning = false ∧ p.trimDue = true ∧ p.reported = .empty ∧ q.reported = .empty ∧
  (∃ since ∈ p.emptySince, since + 60000 ≤ e.now) ∧ ∃ f ∈ q.filter, f < e.params.occOff / 2

theorem Place.trimsAt_iff :
    (((p.passSeen e v r).calSample e v r).trimEligible e && ((p.passSeen e v r).calSample e v r).trimDue) = true ↔
      p.trimsAt e (p.pass e v r) := by
  cases hrun : p.calRunning with
  | true =>
    have hrun' : (p.passSeen e v r).calRunning = true := by rw [Place.calRunning, Place.passSeen_cal]; exact hrun
    rw [Place.calSample_notTrimmed hrun']
    simp [Place.trimsAt, hrun]
  | false =>
    have hrun' : (p.passSeen e v r).calRunning = false := by rw [Place.calRunning, Place.passSeen_cal]; exact hrun
    have hidle := Place.calSample_idle (e := e) (v := v) (r := r) hrun'
    have hreported : (p.pass e v r).reported = (p.passSeen e v r).reported := by simp [Place.pass_eq, hidle]
    have hfilter : (p.pass e v r).filter = (p.passSeen e v r).filter := by simp [Place.pass_eq]
    rw [hidle, Place.trimsAt, hreported, hfilter, hrun]
    rcases p.passSeen_trim e v r with ⟨h1, h2, h3⟩ | ⟨h1, h2⟩
    · simp [Place.trimEligible, h1, h2, h3, hrun', Option.any_eq_true]
      tauto
    · rw [h2, Bool.and_false]
      refine iff_of_false (by decide) ?_
      rintro ⟨-, -, hp, hq, -⟩
      exact h1 (hq.trans hp.symm)

/-- Any other pass moves no trim and leaves DRIFT_LIMIT. -/
theorem Place.pass_untrimmed (h : ¬ p.trimsAt e (p.pass e v r)) :
    (p.pass e v r).trims = p.trims ∧ (p.pass e v r).hasFault .driftLimit = p.hasFault .driftLimit := by
  have hno : ((p.passSeen e v r).calSample e v r).driftTrim e v r = (p.passSeen e v r).calSample e v r :=
    if_neg (mt Place.trimsAt_iff.1 h)
  refine ⟨by simp [Place.pass_eq, hno], ?_⟩
  rw [← p.passSeen_driftLimit e v r]
  exact Place.hasFault_of_live (by rw [Place.pass_eq, hno]; simp) _

theorem Place.trimStep_trims (v : CalValues) (r : Readings) (p : Place) (i : Cell) :
    (p.trimStep v r).trims[i] = if cellTrims v r i then trimToward p.trims[i] (p.trimTarget r i) else p.trims[i] := by
  unfold Place.trimStep; simp only
  split <;> simp

theorem Place.trimStep_driftLimit (v : CalValues) (r : Readings) (p : Place) :
    (p.trimStep v r).hasFault .driftLimit = true ↔
      p.hasFault .driftLimit = true ∨ ∃ i : Cell, cellTrims v r i = true ∧ trimHeld p.trims[i] (p.trimTarget r i) = true := by
  unfold Place.trimStep; simp only
  split
  · rename_i hheld
    rw [Place.hasFault_setFault, if_pos rfl]
    exact iff_of_true rfl (.inr (by simpa using hheld))
  · rename_i hheld
    refine (or_iff_left fun h => hheld ?_).symm
    simpa using h

theorem Place.trimStep_trimDue (v : CalValues) (r : Readings) (p : Place) : (p.trimStep v r).trimDue = false := by
  unfold Place.trimStep; simp only
  split <;> simp

/-- A due trim step, seen on the place before the pass (R135, R136). -/
theorem Place.pass_trimmed (h : p.trimsAt e (p.pass e v r)) :
    (p.pass e v r).trimDue = false ∧
    (∀ i : Cell, (p.pass e v r).trims[i] =
      if cellTrims v r i then trimToward p.trims[i] (p.trimTarget r i) else p.trims[i]) ∧
    ((p.pass e v r).hasFault .driftLimit = true ↔
      p.hasFault .driftLimit = true ∨ ∃ i : Cell, cellTrims v r i = true ∧ trimHeld p.trims[i] (p.trimTarget r i) = true) := by
  have hidle : (p.passSeen e v r).calSample e v r = p.passSeen e v r :=
    Place.calSample_idle (by rw [Place.calRunning, Place.passSeen_cal]; exact h.1)
  have hstep : ((p.passSeen e v r).calSample e v r).driftTrim e v r = (p.passSeen e v r).trimStep v r := by
    have hdue := Place.trimsAt_iff.2 h
    rw [hidle] at hdue ⊢
    exact if_pos hdue
  have htarget : ∀ i, (p.passSeen e v r).trimTarget r i = p.trimTarget r i := fun i => by simp [Place.trimTarget]
  refine ⟨?_, fun i => ?_, ?_⟩
  · rw [Place.pass_eq, hstep, Place.markReminder_trimDue, Place.trimStep_trimDue]
  · rw [Place.pass_eq, hstep, Place.markReminder_trims, Place.trimStep_trims, Place.passSeen_trims, htarget]
  · have hlive : (p.pass e v r).hasFault .driftLimit = ((p.passSeen e v r).trimStep v r).hasFault .driftLimit :=
      Place.hasFault_of_live (by rw [Place.pass_eq, hstep]; simp) _
    rw [hlive, Place.trimStep_driftLimit, Place.passSeen_driftLimit, Place.passSeen_trims]
    simp only [htarget]

end

/-! ## The sums and the new zeros (R127, R130) -/

theorem addSample_cell {v : CalValues} {r : Readings} {sums : Vector Nat 12}
    (h : ∀ i : Cell, v.unusable[i] = false → cellClass r.words[i] = .valid ∨ cellClass r.words[i] = .floor) (i : Cell) :
    (addSample v r sums)[i] = sums[i] + if v.unusable[i] then 0 else cellCode r.words[i] := by
  cases hu : v.unusable[i] with
  | true =>
    rw [Fin.getElem_fin] at hu
    simp [addSample, hu]
  | false =>
    have hk := h i hu
    rw [Fin.getElem_fin] at hu hk
    rcases hk with hk | hk <;> simp [addSample, hu, hk]

theorem newZerosOf_cell (v : CalValues) (sums : Vector Nat 12) (refZeros : Vector Word 12) (i : Cell) :
    (newZerosOf v sums refZeros)[i] = if v.unusable[i] then refZeros[i] else BitVec.ofNat 16 ((sums[i] + 16) / 32) := by
  simp [newZerosOf]

/-! ## The end of a CAL_STORE (R131 to R133, R136) -/

section
variable {p q : Place} {zeros : Vector Word 12} {acked : Bool}

theorem Place.storedAs_storeEnded (e : Env) (acked : Bool) {run : CalRun} (hc : p.cal = .running run) (hz : run.newZeros = some zeros) :
    (p.storeEnded e acked).storedAs zeros acked := by
  have hended : p.storeEnded e acked =
      ((((p.takeZeros zeros).setFault .driftLimit false).setFault .calStoreFail (!acked)).endCal e
        (if acked then .done else .storeFail)).markReminder e p e := by
    unfold Place.storeEnded
    rw [hc]
    simp only [hz]
  have hfault : ∀ k, (p.storeEnded e acked).hasFault k =
      (((p.takeZeros zeros).setFault .driftLimit false).setFault .calStoreFail (!acked)).hasFault k := fun k =>
    Place.hasFault_of_live (by rw [hended]; simp) k
  have hmarked : ∀ port, (p.storeEnded e acked).marked port .cal = true := fun port => by
    rw [hended]; exact Place.marksGrow_markReminder _ e p e port .cal (Place.marked_endCal e _ _ port)
  refine ⟨?_, ?_, ?_, ?_, ?_, hmarked .a, hmarked .b⟩
  · rw [hended, Place.markReminder_cal, Place.endCal_eq]
  · rw [hended]; simp [Place.takeZeros]
  · rw [hended]; simp [Place.takeZeros]
  · rw [hfault, Place.hasFault_setFault, if_neg (by decide), Place.hasFault_setFault, if_pos rfl]
  · rw [hfault, Place.hasFault_setFault, if_pos rfl]

theorem Place.storedAs.of_agrees (h : p.storedAs zeros acked) (hq : q.agrees p) (hm : p.marksGrow q) : q.storedAs zeros acked := by
  obtain ⟨hcal, hzeros, htrims, hlimit, hfail, ha, hb⟩ := h
  refine ⟨by rw [hq]; exact hcal, by rw [hq]; exact hzeros, by rw [hq]; exact htrims, by rw [hq.hasFault]; exact hlimit,
    by rw [hq.hasFault]; exact hfail, hm .a .cal ha, hm .b .cal hb⟩

/-- A node restart after the store leaves the stored place but for NODE_RESTART (R32, R131). -/
theorem Place.storedAs.setFault_nodeRestart (h : p.storedAs zeros acked) (on : Bool) :
    (p.setFault .nodeRestart on).storedAs zeros acked := by
  obtain ⟨hcal, hzeros, htrims, hlimit, hfail, ha, hb⟩ := h
  have hgrow := Place.marksGrow_setFault p .nodeRestart on
  refine ⟨by simpa using hcal, by simpa using hzeros, by simpa using htrims, ?_, ?_, hgrow .a .cal ha, hgrow .b .cal hb⟩
  · rw [Place.hasFault_setFault, if_neg (by decide)]; exact hlimit
  · rw [Place.hasFault_setFault, if_neg (by decide)]; exact hfail

end

end Sys2Proof.Machine
end

section
/-! PROOF. Calibration samples, trim steps and the end of a CAL_STORE (O47). -/

namespace Sys2Proof.Machine

/-! ## The exchange that an answer or a failure ends -/

theorem endOf_accepted {s : State} {x : Exchange} {m : Moment} {ch : RxChar} {a : Answer}
    (hp : x.phase = some .awaiting ∨ x.phase = some .receiving)
    (ha : checkAnswer x.cmd (s.dev.station x.station).count (x.rx ++ [ch.data]) (charWellFormed ch) = .accepted a)
    (hc : x.cmd ≠ .identify) :
    s.dev.endOf x (.linkCharacterReceived m ch) = some (m, .answered a x.attempt) := by
  have hcarry : x.carryBoot a = a := if_neg fun h => hc h.1
  simp [Device.endOf, Device.failureOf, hp, ha, Exchange.report, hcarry]

theorem endOf_failed {s : State} {x : Exchange} {c : Instr} {m : Moment} {k : FailKind} (h : s.dev.failureOf x c = some (m, k))
    (hsecond : x.firstFailure ≠ none) : s.dev.endOf x c = some (m, .failed k) := by
  unfold Device.endOf
  rw [h]
  exact if_neg hsecond

/-! ## The places while the list stands -/

theorem Place.marksGrow_modeChanged (e0 e : Env) (p : Place) : p.marksGrow (p.modeChanged e0 e) :=
  (Place.marksGrow_evalVerdict e p).trans (Place.marksGrow_remind _ e0 p e)

section
variable {d : Device} {c : Code}

/-- While the list stands a place keeps its number through the end of the exchange, and all but what a completion of start-up
evaluates. -/
theorem Device.settled_place (hlist : d.places.map Place.id = d.newList) {n : Nat} {p : Place} (hp : d.places[n]? = some p) :
    ∃ q, d.settled.places[n]? = some q ∧ q.agrees p ∧ p.marksGrow q := by
  obtain ⟨hplaces, -⟩ := Device.rebuild_of_listed hlist
  rw [← hplaces] at hp
  unfold Device.settled
  split
  · by_cases hm : d.rebuild.mode = .startUp
    · obtain ⟨hmap, -⟩ := Device.completeStartup_inStartUp hm
      refine ⟨_, by rw [hmap, List.getElem?_map, hp]; rfl, Place.agrees_modeChanged _ _ p, Place.marksGrow_modeChanged _ _ p⟩
    · exact ⟨p, by rw [Device.completeStartup_otherwise hm, hp], rfl, fun _ _ h => h⟩
  · exact ⟨p, hp, rfl, fun _ _ h => h⟩

theorem Device.listed_of_mapPlaces {f : Place → Place} (hlist : d.places.map Place.id = d.newList) (hf : ∀ p, (f p).id = p.id) :
    (d.mapPlaces f).places.map Place.id = (d.mapPlaces f).newList :=
  (map_ids_of hf d.places).trans hlist

theorem Device.settled_waiting_of_listed (hlist : d.places.map Place.id = d.newList) : d.settled.ss.waiting = d.ss.waiting := by
  obtain ⟨-, -, hss, -⟩ := Device.rebuild_of_listed hlist
  rw [Device.settled_waiting, hss]

theorem Place.pass_id (e : Env) (v : CalValues) (r : Readings) (p : Place) : (p.pass e v r).id = p.id := by
  simp [Place.pass_eq, Place.passSeen, Place.loadPass, Place.loadFields]

/-! ## A succeeded scan (R66, R130) -/

/-- The passes of the station's listed places. -/
def Device.passTaken (d : Device) (c : Code) (payload : List Byte) : Device :=
  d.mapPlaces (Place.ofStation c (fun p => p.pass d.env ((d.station c).valuesOf p.id.seat) (readingsOf payload p.id.seat)))

/-- The succeeded scan before a pending LINK_TEST is looked at. -/
def Device.scanCounted (d : Device) (c : Code) (payload : List Byte) : Device :=
  (((d.passTaken c payload).endScan c).setStation c { d.station c with failures := 0 }).askStores d.places (d.passTaken c payload).places

variable {payload : List Byte}

theorem Device.scanSucceeded_eq : d.scanSucceeded c payload = (d.scanCounted c payload).takeUpTest c := rfl

/-- At each place CU asks for one exchange or none. -/
theorem Device.askStores_cons (d : Device) (p q : Place) (ps qs : List Place) :
    d.askStores (p :: ps) (q :: qs) = d.askStores ps qs ∨
    ∃ cmd, d.askStores (p :: ps) (q :: qs) = (d.ask q.id.station cmd .cu).askStores ps qs := by
  rw [Device.askStores]
  repeat' split
  · exact .inl rfl
  · exact .inr ⟨_, rfl⟩
  · exact .inl rfl
  · exact .inl rfl

theorem Device.askStores_places (ps qs : List Place) : (d.askStores ps qs).places = d.places := by
  induction ps generalizing d qs with
  | nil => rfl
  | cons p ps ih =>
    cases qs with
    | nil => rfl
    | cons q qs => rcases d.askStores_cons p q ps qs with h | ⟨cmd, h⟩ <;> (rw [h]; exact ih _)

theorem Device.takeUpTest_places : (d.takeUpTest c).places = d.places := by
  unfold Device.takeUpTest; split <;> rfl

theorem Device.scanSucceeded_places : (d.scanSucceeded c payload).places = (d.passTaken c payload).places := by
  rw [Device.scanSucceeded_eq, Device.takeUpTest_places, Device.scanCounted, Device.askStores_places]; rfl

theorem Device.elsewhere_scanSucceeded : Device.Elsewhere c d (d.scanSucceeded c payload) := by
  have hcounted : Device.Elsewhere c d (((d.passTaken c payload).endScan c).setStation c { d.station c with failures := 0 }) :=
    (Device.elsewhere_setRecord (d.passTaken c payload) c _).trans (Device.elsewhere_setStation _ c _)
  obtain ⟨hst, hrec⟩ := Device.askStores_records
    (((d.passTaken c payload).endScan c).setStation c { d.station c with failures := 0 }) d.places (d.passTaken c payload).places
  exact (hcounted.trans (Device.elsewhere_of_eq hst hrec)).trans (Device.elsewhere_takeUpTest _ c)

theorem Device.seats_scanSucceeded : (d.station c).sameSeats ((d.scanSucceeded c payload).station c) := by
  have hcounted : (d.scanCounted c payload).station c = { d.station c with failures := 0 } := by
    rw [Device.scanCounted, (Device.askStores_records _ _ _).1 c, Device.setStation_station, if_pos rfl]
  obtain ⟨hlisted, hserial, hcount⟩ := Device.seats_takeUpTest (d := d.scanCounted c payload) (c := c)
  rw [hcounted] at hlisted hserial hcount
  exact ⟨hlisted, hserial, hcount⟩

/-- The list stands through a succeeded scan. -/
theorem Device.scanSucceeded_listed (hlist : d.places.map Place.id = d.newList) :
    (d.scanSucceeded c payload).places.map Place.id = (d.scanSucceeded c payload).newList := by
  refine Device.listed_of_elsewhere hlist Device.elsewhere_scanSucceeded Device.seats_scanSucceeded ?_
  rw [Device.scanSucceeded_places]
  refine map_ids_of (fun p => ?_) _
  unfold Place.ofStation
  split
  · exact Place.pass_id _ _ _ p
  · rfl

/-! ## The CAL_STORE requests (R130) -/

theorem Device.mem_askStores {r : LinkRequest} (ps qs : List Place) (h : r ∈ d.ss.waiting) : r ∈ (d.askStores ps qs).ss.waiting := by
  induction ps generalizing d qs with
  | nil => exact h
  | cons p ps ih =>
    cases qs with
    | nil => exact h
    | cons q qs =>
      rcases d.askStores_cons p q ps qs with hcons | ⟨cmd, hcons⟩
      · rw [hcons]; exact ih _ h
      · rw [hcons]; exact ih _ (List.mem_append_left _ h)

theorem Device.mem_takeUpTest {r : LinkRequest} (h : r ∈ d.ss.waiting) : r ∈ (d.takeUpTest c).ss.waiting := by
  unfold Device.takeUpTest
  split
  · exact List.mem_append_left _ h
  · exact h

/-- A place that entered phase STORING has its CAL_STORE asked for. -/
theorem Device.askStores_asks {ps qs : List Place} {n : Nat} {p q : Place} {run : CalRun} {zeros : Vector Word 12}
    (hp : ps[n]? = some p) (hq : qs[n]? = some q) (hcal : q.cal = .running run) (hz : run.newZeros = some zeros)
    (hs : p.storing = false) :
    { station := q.id.station, cmd := .calStore q.id.seat zeros, block := .cu } ∈ (d.askStores ps qs).ss.waiting := by
  induction ps generalizing d qs n with
  | nil => cases hp
  | cons p' ps ih =>
    cases qs with
    | nil => cases hq
    | cons q' qs =>
      cases n with
      | zero =>
        obtain rfl : p' = p := by simpa using hp
        obtain rfl : q' = q := by simpa using hq
        have hasked : d.askStores (p' :: ps) (q' :: qs) =
            (d.ask q'.id.station (.calStore q'.id.seat zeros) .cu).askStores ps qs := by
          simp [Device.askStores, hcal, hz, hs]
        rw [hasked]
        exact Device.mem_askStores ps qs (List.mem_append_right _ (List.mem_singleton_self _))
      | succ n =>
        rcases d.askStores_cons p' q' ps qs with hcons | ⟨cmd, hcons⟩ <;> (rw [hcons]; exact ih (by simpa using hp) (by simpa using hq))

/-- The passes are taken place by place. -/
theorem Device.passTaken_place {n : Nat} {p : Place} (hp : d.places[n]? = some p) (hc : p.id.station = c) :
    (d.passTaken c payload).places[n]? =
      some (p.pass d.env ((d.station c).valuesOf p.id.seat) (readingsOf payload p.id.seat)) := by
  rw [Device.passTaken, Device.mapPlaces_places, List.getElem?_map, hp]
  exact congrArg some (if_pos hc)

theorem Device.scanSucceeded_asks {n : Nat} {p q : Place} {run : CalRun} {zeros : Vector Word 12} (hp : d.places[n]? = some p)
    (hq : (d.passTaken c payload).places[n]? = some q) (hcal : q.cal = .running run) (hz : run.newZeros = some zeros)
    (hs : p.storing = false) :
    { station := q.id.station, cmd := .calStore q.id.seat zeros, block := .cu } ∈ (d.scanSucceeded c payload).ss.waiting :=
  Device.mem_takeUpTest (Device.askStores_asks hp hq hcal hz hs)

/-! ## The end of a CAL_STORE (R131) -/

/-- The end of a CAL_STORE taken at its place. -/
def Device.storeTaken (d : Device) (c : Code) (seat : Seat) (acked : Bool) : Device :=
  d.mapPlaces (Place.ofStation c (fun p => if p.id.seat = seat then p.storeEnded d.env acked else p))

/-- The station's place of that index is STORING. -/
abbrev Device.storingAt (d : Device) (c : Code) (seat : Seat) : Prop :=
  ∃ p ∈ d.places, p.id.station = c ∧ p.id.seat = seat ∧ p.storing = true

variable {seat : Seat}

theorem Device.storingAt_iff :
    d.places.any (fun p => p.id.station = c && p.id.seat = seat && p.storing) = true ↔ d.storingAt c seat := by
  simp [and_assoc]

theorem Device.storeOutcome_failed (h : d.storingAt c seat) (k : FailKind) :
    d.storeOutcome c seat (.failed k) = d.storeTaken c seat false := if_pos (Device.storingAt_iff.2 h)

theorem Device.storeOutcome_answered (h : d.storingAt c seat) (a : Answer) (n : Nat) :
    d.storeOutcome c seat (.answered a n) =
      if a.boot then (d.storeTaken c seat (decide (a.result = .ack))).nodeRestart c
      else d.storeTaken c seat (decide (a.result = .ack)) := if_pos (Device.storingAt_iff.2 h)

theorem Place.storeEnded_id (e : Env) (acked : Bool) (p : Place) : (p.storeEnded e acked).id = p.id := by
  unfold Place.storeEnded
  repeat' split
  all_goals simp [Place.takeZeros]

theorem Device.storeTaken_listed (hlist : d.places.map Place.id = d.newList) (acked : Bool) :
    (d.storeTaken c seat acked).places.map Place.id = (d.storeTaken c seat acked).newList :=
  Device.listed_of_mapPlaces hlist fun p => by
    have hid : (if p.id.seat = seat then p.storeEnded d.env acked else p).id = p.id := by
      split
      · exact Place.storeEnded_id _ _ _
      · rfl
    unfold Place.ofStation
    split
    · exact hid
    · rfl

theorem Device.nodeRestart_places (d : Device) (c : Code) :
    (d.nodeRestart c).places = d.places.map (fun p =>
      Place.ofStation c (fun q => q.setFault .nodeRestart true) (Place.ofStation c (fun q => q.abortCal d.env .abortedNode) p)) :=
  (List.map_map ..).trans rfl

theorem Device.nodeRestart_listed (hlist : d.places.map Place.id = d.newList) (hc : (d.station c).listed = true) :
    (d.nodeRestart c).places.map Place.id = (d.nodeRestart c).newList := by
  refine Device.listed_of_elsewhere hlist (Device.elsewhere_nodeRestart d c) (Device.seats_nodeRestart hc) ?_
  rw [Device.nodeRestart_places]
  refine map_ids_of (fun p => ?_) _
  unfold Place.ofStation
  repeat' split
  all_goals simp

section
variable {n : Nat} {p : Place} {run : CalRun} {zeros : Vector Word 12}

theorem Device.storeTaken_place (acked : Bool) (hp : d.places[n]? = some p) (hc : p.id.station = c) (hseat : p.id.seat = seat) :
    (d.storeTaken c seat acked).places[n]? = some (p.storeEnded d.env acked) := by
  rw [Device.storeTaken, Device.mapPlaces_places, List.getElem?_map, hp]
  exact congrArg some ((if_pos hc).trans (if_pos hseat))

/-- A place with no calibration running takes NODE_RESTART alone from a node restart. -/
theorem Device.nodeRestart_place (hp : d.places[n]? = some p) (hc : p.id.station = c) (hrest : p.calRunning = false) :
    (d.nodeRestart c).places[n]? = some (p.setFault .nodeRestart true) := by
  have hidle : p.abortCal d.env .abortedNode = p := if_neg (by rw [hrest]; decide)
  rw [Device.nodeRestart_places, List.getElem?_map, hp]
  refine congrArg some ?_
  simp only [Place.ofStation, if_pos hc, hidle]

/-- The place is stored after the list is rebuilt, whether or not a node restart is taken with it. -/
theorem Device.stored_settled (hlist : d.places.map Place.id = d.newList) (acked : Bool) (hp : d.places[n]? = some p)
    (hc : p.id.station = c) (hseat : p.id.seat = seat) (hcal : p.cal = .running run) (hz : run.newZeros = some zeros) :
    (∃ q, (d.storeTaken c seat acked).settled.places[n]? = some q ∧ q.storedAs zeros acked) ∧
    ∃ q, ((d.storeTaken c seat acked).nodeRestart c).settled.places[n]? = some q ∧ q.storedAs zeros acked := by
  have hstored := Place.storedAs_storeEnded d.env acked hcal hz
  have hat := Device.storeTaken_place acked hp hc hseat
  have hlist' := Device.storeTaken_listed (c := c) (seat := seat) hlist acked
  constructor
  · obtain ⟨q, hq, hagrees, hgrow⟩ := Device.settled_place hlist' hat
    exact ⟨q, hq, hstored.of_agrees hagrees hgrow⟩
  · have hlisted : (d.station c).listed = true := by
      rw [← hc]; exact Device.listed_of_place hlist (List.mem_of_getElem? hp)
    have hrest : (p.storeEnded d.env acked).calRunning = false := by rw [Place.calRunning, hstored.1]
    have hid : (p.storeEnded d.env acked).id.station = c := by rw [Place.storeEnded_id, hc]
    obtain ⟨q, hq, hagrees, hgrow⟩ := Device.settled_place (Device.nodeRestart_listed hlist' hlisted)
      (Device.nodeRestart_place hat hid hrest)
    exact ⟨q, hq, (hstored.setFault_nodeRestart true).of_agrees hagrees hgrow⟩

end

end

/-- The outcome of a CAL_STORE goes to CU. -/
theorem Device.handed_store {d : Device} {x : Exchange} {seat : Seat} {sent : Vector Word 12} (o : LinkOutcome) (hb : x.block = .cu)
    (hc : x.cmd = .calStore seat sent) : d.handed x o = d.storeOutcome x.station seat o := by
  simp only [Device.handed, Device.deliver, hb, hc]
  exact if_neg (by decide)

theorem Device.restarted.finish {d : Device} {c : Code} {retained : Bool} (h : d.restarted c retained) :
    d.finish.restarted c retained := h

/-! ## A pass as the statement tells it -/

section
variable {e : Env} {v : CalValues} {r : Readings} {p q : Place}

/-- A sample of a running calibration, on the place as the pass leaves it (R127, R130). -/
theorem Place.pass_sample {run : CalRun} (hrun : p.cal = .running run) (hz : run.newZeros = none) (hq : q.agrees (p.pass e v r))
    (hm : (p.pass e v r).marksGrow q) :
    ((∃ i : Cell, v.unusable[i] = false ∧ (cellClass r.words[i] = .opened ∨ cellClass r.words[i] = .saturated)) →
      q.cal = .ended .abortedCell ∧ ∀ port : Port, q.marked port .cal = true) ∧
    ((∀ i : Cell, v.unusable[i] = false → cellClass r.words[i] = .valid ∨ cellClass r.words[i] = .floor) →
      (run.forced = false → (∀ total ∈ q.total, e.params.occOff ≤ total) →
        q.cal = .ended .abortedDisturbed ∧ ∀ port : Port, q.marked port .cal = true) ∧
      ((run.forced = true ∨ ∃ total ∈ q.total, total < e.params.occOff) → q.cal = .running (run.sampled v r p.refZeros))) := by
  have hcal : q.cal = (p.pass e v r).cal := by rw [hq]
  have htotal : q.total = (p.pass e v r).total := by rw [hq]
  have hended : ∀ st, ((p.pass e v r).cal = .ended st ∧ ∀ port, (p.pass e v r).marked port .cal = true) →
      q.cal = .ended st ∧ ∀ port : Port, q.marked port .cal = true := fun st h =>
    ⟨hcal.trans h.1, fun port => hm port .cal (h.2 port)⟩
  refine ⟨fun hcell => hended _ (Place.pass_unreadable hrun hz (cellUnreadable_iff.2 hcell)), fun hcells => ?_⟩
  have hread : cellUnreadable v r = false := by
    refine Bool.eq_false_iff.2 fun h => ?_
    obtain ⟨i, hu, hbad⟩ := cellUnreadable_iff.1 h
    rcases hcells i hu with hk | hk <;> (rw [hk] at hbad; simp at hbad)
  refine ⟨fun hf hocc => hended _ (Place.pass_disturbed hrun hz hread hf ?_),
    fun hgood => hcal.trans (Place.pass_sampled hrun hz hread ?_)⟩
  · rw [htotal] at hocc
    simpa [Place.disturbs, Option.all_eq_true] using hocc
  · refine hgood.imp_right fun hlow => ?_
    obtain ⟨total, ht, hlt⟩ := hlow
    rw [Place.disturbs, ← htotal, Option.mem_def.1 ht]
    simpa using hlt

/-- The trims after a pass, by whether a step was due (R134 to R136). -/
theorem Place.pass_trim (hq : q.agrees (p.pass e v r)) :
    if p.trimsAt e q then
      q.trimDue = false ∧
      (∀ i : Cell, q.trims[i] = if cellTrims v r i then trimToward p.trims[i] (p.trimTarget r i) else p.trims[i]) ∧
      (q.hasFault .driftLimit = true ↔
        p.hasFault .driftLimit = true ∨ ∃ i : Cell, cellTrims v r i = true ∧ trimHeld p.trims[i] (p.trimTarget r i) = true)
    else q.trims = p.trims ∧ q.hasFault .driftLimit = p.hasFault .driftLimit := by
  have hdue : p.trimsAt e q ↔ p.trimsAt e (p.pass e v r) := by
    have hreported : q.reported = (p.pass e v r).reported := by rw [hq]
    have hfilter : q.filter = (p.pass e v r).filter := by rw [hq]
    rw [Place.trimsAt, hreported, hfilter]
  have htrims : q.trims = (p.pass e v r).trims := by rw [hq]
  have htrimDue : q.trimDue = (p.pass e v r).trimDue := by rw [hq]
  rw [hq.hasFault, htrims, htrimDue]
  by_cases h : p.trimsAt e q
  · rw [if_pos h]; exact Place.pass_trimmed (hdue.1 h)
  · rw [if_neg h]; exact Place.pass_untrimmed (mt hdue.2 h)

/-- The calibration after the sample, spelt out: the sums, and at the 32nd sample the new zeros. -/
theorem CalRun.sampled_of_not_last {run : CalRun} (refZeros : Vector Word 12) (hz : run.newZeros = none) (hn : run.samples + 1 ≠ 32) :
    run.sampled v r refZeros = { run with samples := run.samples + 1, sums := addSample v r run.sums } := by
  rw [CalRun.sampled, if_neg hn, ← hz]

theorem CalRun.sampled_of_last {run : CalRun} (refZeros : Vector Word 12) (hn : run.samples + 1 = 32) :
    run.sampled v r refZeros = { run with
      samples := 32, sums := addSample v r run.sums, newZeros := some (newZerosOf v (addSample v r run.sums) refZeros) } := by
  rw [CalRun.sampled, if_pos hn, hn]

theorem trimHeld_iff (trim target : Int) :
    trimHeld trim target = true ↔ (64 < target ∧ trim = 64) ∨ (target < -64 ∧ trim = -64) := by
  simp [trimHeld]

theorem cellTrims_iff (i : Cell) : cellTrims v r i = true ↔ v.unusable[i] = false ∧ cellClass r.words[i] = .valid := by
  simp [cellTrims]

end

/-- Settles O47: the passes by `Place.pass_sample` and `Place.pass_trim`, a CAL_STORE by `Place.storedAs_storeEnded`; the list stands
through both, so that a place keeps its number (`Device.settled_place`). -/
theorem calibrationsTakeSamplesTrimsAndStores : Obligations.CalibrationsTakeSamplesTrimsAndStores := by
  refine ⟨fun m ch s x a hmap hx hp ha hc hb hscan hr hboot hex hpat => ?pass,
    fun s x seat sent zeros n p run hmap hx hc hb hp hpc hseat hcal hz =>
      ⟨fun m ch a hphase ha => ?answered, fun c m k hf hsecond => ?failed⟩⟩
  case answered =>
    obtain ⟨d, rx, hd, he⟩ := exec_of_endOf_handed hx (endOf_accepted (m := m) hphase ha (by rw [hc]; exact nofun))
    have hp' : d.places[n]? = some p := by rw [hd.places]; exact hp
    have hstoring : d.storingAt x.station seat :=
      ⟨p, List.mem_of_getElem? hp', hpc, hseat, by simp [Place.storing, hcal, hz]⟩
    obtain ⟨hkept, hrestarted⟩ := Device.stored_settled (hd.listed hmap) (decide (a.result = .ack)) hp' hpc hseat hcal hz
    rw [Device.handed_store (x := { x with rx := rx }) _ hb hc, Device.storeOutcome_answered hstoring] at he
    by_cases hboot : a.boot = true
    · rw [if_pos hboot] at he
      obtain ⟨q, hq, hstored⟩ := hrestarted
      exact ⟨_, q, he, hq, hstored, fun _ => (Device.nodeRestart_settled _ x.station).1.finish⟩
    · rw [if_neg hboot] at he
      obtain ⟨q, hq, hstored⟩ := hkept
      exact ⟨_, q, he, hq, hstored, fun h => absurd h hboot⟩
  case failed =>
    obtain ⟨d, rx, hd, he⟩ := exec_of_endOf_handed hx (endOf_failed hf hsecond)
    have hp' : d.places[n]? = some p := by rw [hd.places]; exact hp
    have hstoring : d.storingAt x.station seat :=
      ⟨p, List.mem_of_getElem? hp', hpc, hseat, by simp [Place.storing, hcal, hz]⟩
    obtain ⟨⟨q, hq, hstored⟩, -⟩ := Device.stored_settled (hd.listed hmap) false hp' hpc hseat hcal hz
    rw [Device.handed_store (x := { x with rx := rx }) _ hb hc, Device.storeOutcome_failed hstoring] at he
    exact ⟨_, q, he, hq, hstored⟩
  case pass =>
    have hend := endOf_accepted (m := m) hp ha (by rw [hc]; decide)
    obtain ⟨d, rx, hd, he⟩ := exec_of_endOf_handed hx hend
    have hhanded : d.handed { x with rx := rx } (.answered a x.attempt) = d.scanSucceeded x.station a.payload := by
      rw [Device.handed_scan (x := { x with rx := rx }) hb (by rw [hd.scan]; exact hscan)]
      show d.scanOutcome x.station x.cmd _ = _
      rw [hc, Device.scanOutcome_sample _ hboot, if_pos ⟨hr, hex, hpat⟩]
    rw [hhanded] at he
    have hlisted := Device.scanSucceeded_listed (c := x.station) (payload := a.payload) (hd.listed hmap)
    refine ⟨_, he, fun n p q hp hq hpc => ?_⟩
    rw [← hd.places] at hp
    rw [Device.finish_places] at hq
    have hpassed := Device.passTaken_place (payload := a.payload) hp hpc
    obtain ⟨q', hq', hagrees, hgrow⟩ := Device.settled_place hlisted (Device.scanSucceeded_places ▸ hpassed)
    obtain rfl : q' = q := Option.some.inj (hq'.symm.trans hq)
    have hnow : d.env.now = s.dev.time.now := hd.now
    have hparams : d.env.params = s.dev.params := by rw [hd.env]; exact s.dev.atMoment_params m
    have htrim := Place.pass_trim hagrees
    rw [hd.station] at hagrees hgrow hpassed htrim
    refine ⟨?_, fun run hrun hz => ?_, ?_⟩
    · exact (by rw [hagrees] : q'.refZeros = _).trans Place.pass_refZeros
    · have hsample := Place.pass_sample hrun hz hagrees hgrow
      rw [hparams] at hsample
      obtain ⟨hunreadable, hreadable⟩ := hsample
      refine ⟨hunreadable, fun hcells => ⟨(hreadable hcells).1, fun hgood => ?_⟩⟩
      have hcal := (hreadable hcells).2 hgood
      refine ⟨_, addSample_cell hcells, fun hn => ?_, fun hn => ⟨_, newZerosOf_cell _ _ _, ?_, ?_⟩⟩
      · rw [hcal, CalRun.sampled_of_not_last p.refZeros hz hn]
      · rw [hcal, CalRun.sampled_of_last p.refZeros hn]
      · have hpasscal : (p.pass d.env ((s.dev.station x.station).valuesOf p.id.seat) (readingsOf a.payload p.id.seat)).cal = q'.cal := by
          rw [hagrees]
        have hasked := Device.scanSucceeded_asks hp hpassed (hpasscal.trans hcal) (if_pos hn) (by simp [Place.storing, hrun, hz])
        rw [Place.pass_id, hpc] at hasked
        rw [Device.finish_ss_waiting, Device.settled_waiting_of_listed hlisted]
        exact hasked
    · by_cases h : p.trimsAt d.env q'
      · rw [if_pos h] at htrim
        rw [Place.trimsAt, hnow, hparams] at h
        obtain ⟨hdue, htrims, hlimit⟩ := htrim
        rw [if_pos h]
        refine ⟨hdue, fun i hi => ?_, fun i hi => ?_, hlimit.trans ?_⟩
        · rw [htrims i, if_pos ((cellTrims_iff i).2 hi)]; rfl
        · rw [htrims i, if_neg (mt (cellTrims_iff i).1 hi)]
        · exact or_congr_right (exists_congr fun i => and_congr (cellTrims_iff i) (trimHeld_iff _ _))
      · rw [if_neg h] at htrim
        rw [Place.trimsAt, hnow, hparams] at h
        rw [if_neg h]
        exact htrim

end Sys2Proof.Machine
end

section
/-! SUPPORT. The list change place by place (R45 to R48, R155): the record that each number of the new list takes, the marks it carries,
and the reference zeros that go back to ST. -/

namespace Sys2Proof.Machine

/-! ## Sets of place numbers -/

theorem numberSet_getLsbD (n : Nat) (bs : List Bool) (i : Nat) (hi : i < 16) :
    (numberSet n bs).getLsbD i = (decide (n ≤ i) && (bs[i - n]?).getD false) := by
  induction bs generalizing n with
  | nil => simp [numberSet]
  | cons b bs ih =>
    rw [numberSet, BitVec.getLsbD_or, ih]
    rcases Nat.lt_trichotomy i n with h | h | h
    · have h1 : ¬ n ≤ i := by omega
      have h2 : ¬ n + 1 ≤ i := by omega
      cases b <;> simp [BitVec.getLsbD_twoPow, h1, h2, h.ne']
    · subst h
      cases b <;> simp [hi]
    · have h1 : n ≤ i := by omega
      have h2 : n + 1 ≤ i := by omega
      have h3 : i - n = i - (n + 1) + 1 := by omega
      cases b <;> simp [BitVec.getLsbD_twoPow, h1, h2, h3, h.ne]

/-- A place's number stands in the lamp mask while its lamp is lit (R153). -/
theorem lampMaskOf_getLsbD {ps : List Place} {n : Nat} {p : Place} (hn : n < 16) (hp : ps[n]? = some p) :
    (lampMaskOf ps).getLsbD n = p.lampLit := by
  rw [lampMaskOf, numberSet_getLsbD 0 _ n hn]
  simp [hp]

/-! ## The records by number -/

theorem Device.placesFor_getElem? (d : Device) (n : Nat) (ids : List Identity) (i : Nat) :
    (d.placesFor n ids)[i]? = ids[i]?.map (fun id => d.placeAt id (n + i)) := by
  induction ids generalizing n i with
  | nil => rfl
  | cons id ids ih =>
    cases i with
    | zero => rfl
    | succ i => rw [Device.placesFor, List.getElem?_cons_succ, List.getElem?_cons_succ, ih, Nat.add_right_comm, Nat.add_assoc]

/-- REMINDER where the lamp-mask entry at a number differs before and after (R155). -/
def Place.lampMoved (before after : Word) (n : Nat) (p : Place) : Place :=
  if before.getLsbD n = after.getLsbD n then p else p.mark .reminder

theorem markMoved_getElem? (before after : Word) (n : Nat) (ps : List Place) (i : Nat) :
    (markMoved before after n ps)[i]? = ps[i]?.map (Place.lampMoved before after (n + i)) := by
  induction ps generalizing n i with
  | nil => rfl
  | cons p ps ih =>
    cases i with
    | zero => rfl
    | succ i => rw [markMoved, List.getElem?_cons_succ, List.getElem?_cons_succ, ih, Nat.add_right_comm, Nat.add_assoc]

section
variable (before after : Word) (n : Nat) (p : Place)

theorem Place.lampMoved_eq : p.lampMoved before after n = { p with marks := (p.lampMoved before after n).marks } := by
  unfold Place.lampMoved; split <;> rfl

variable {before after n p} in
theorem Place.eq_of_lampMoved {q : Place} (h : q = p.lampMoved before after n) : q = { p with marks := q.marks } := by
  subst h; exact p.lampMoved_eq before after n

theorem Place.marked_lampMoved (port : Port) (k : ChangeKind) :
    (p.lampMoved before after n).marked port k =
      (p.marked port k || (decide (k = .reminder) && (after.getLsbD n != before.getLsbD n))) := by
  unfold Place.lampMoved
  split
  · rename_i h; simp [h]
  · rename_i h
    rw [Place.marked_mark, bne_comm, bne_iff_ne.2 h, Bool.and_true]

end

/-- Marks light no lamp. -/
theorem lampMaskOf_markMoved (before after : Word) (n : Nat) (ps : List Place) :
    lampMaskOf (markMoved before after n ps) = lampMaskOf ps := by
  have hlit : (markMoved before after n ps).map Place.lampLit = ps.map Place.lampLit := by
    induction ps generalizing n with
    | nil => rfl
    | cons p ps ih => rw [markMoved, List.map_cons, List.map_cons, ih]; split <;> rfl
  rw [lampMaskOf, hlit]; rfl

/-! ## The place that takes a number (R45, R46) -/

section
variable {d : Device}

theorem place_unique {ps : List Place} (hnodup : (ps.map Place.id).Nodup) {p q : Place} (hp : p ∈ ps) (hq : q ∈ ps)
    (h : p.id = q.id) : p = q := List.inj_on_of_nodup_map hnodup hp hq h

theorem Device.find_place (hnodup : (d.places.map Place.id).Nodup) {p : Place} (hp : p ∈ d.places) :
    d.places.find? (fun q => q.id == p.id) = some p := by
  cases hf : d.places.find? (fun q => q.id == p.id) with
  | none => exact absurd (beq_self_eq_true p.id) (List.find?_eq_none.1 hf p hp)
  | some q =>
    have hid : q.id = p.id := by simpa using List.find?_some hf
    rw [place_unique hnodup (List.mem_of_find?_eq_some hf) hp hid]

theorem Device.findIdx_place (hnodup : (d.places.map Place.id).Nodup) {k : Nat} {p : Place} (hp : d.places[k]? = some p) :
    d.places.findIdx (fun q => q.id == p.id) = k := by
  obtain ⟨hk, rfl⟩ := List.getElem?_eq_some_iff.1 hp
  refine (List.findIdx_eq hk).2 ⟨beq_self_eq_true _, fun j hj => beq_eq_false_iff_ne.2 fun h => ?_⟩
  have := (hnodup.getElem_inj_iff (i := j) (j := k) (hi := by simp; omega) (hj := by simpa using hk)).1 (by simpa using h)
  omega

/-- A place that stays keeps its record, with MAP where its number changes. -/
theorem Device.placeAt_stays (hnodup : (d.places.map Place.id).Nodup) {k : Nat} {p : Place} (hp : d.places[k]? = some p) (n : Nat) :
    d.placeAt p.id n = if k = n then p else p.mark .map := by
  rw [Device.placeAt, Device.find_place hnodup (List.mem_of_getElem? hp)]
  simp only [Device.findIdx_place hnodup hp]

theorem Device.placeAt_joins {id : Identity} (h : ∀ p ∈ d.places, p.id ≠ id) (n : Nat) :
    d.placeAt id n = (d.newPlace id).mark .map := by
  rw [Device.placeAt, List.find?_eq_none.2 fun p hp => by simpa using h p hp]

theorem Device.rebuild_changed (hchange : d.newList ≠ d.places.map Place.id) :
    d.rebuild = ((d.changeList d.newList).setGlobal .mapOverflow (d.leftOut d.newList)).setGlobal .badStation
      ((List.finRange 12).any (fun c => (d.station c).state == .faulted)) := by
  have hids : d.newList ≠ d.places.map (·.id) := hchange
  unfold Device.rebuild
  simp only [hids, if_false]

/-- After a rebuild that changes the list each number holds the place of its identity, with REMINDER where its lamp-mask entry moved. -/
theorem Device.rebuild_place (hchange : d.newList ≠ d.places.map Place.id) {n : Nat} {q : Place} (hq : d.rebuild.places[n]? = some q) :
    q = (d.placeAt q.id n).lampMoved d.agg.lampMask (lampMaskOf d.rebuild.places) n := by
  have hplaces : d.rebuild.places =
      markMoved d.agg.lampMask (lampMaskOf (d.placesFor 0 d.newList)) 0 (d.placesFor 0 d.newList) := by
    rw [Device.rebuild_changed hchange, Device.setGlobal_places, Device.setGlobal_places]
    rfl
  have hid : d.newList[n]? = some q.id := by rw [← d.rebuild_ids, List.getElem?_map, hq]; rfl
  have hmask : lampMaskOf d.rebuild.places = lampMaskOf (d.placesFor 0 d.newList) := by rw [hplaces, lampMaskOf_markMoved]
  rw [hplaces, markMoved_getElem?, Device.placesFor_getElem?, hid, Nat.zero_add, ← hmask] at hq
  exact (Option.some.inj hq).symm

/-- A place that stays, by its number before and after the rebuild. -/
theorem Device.rebuild_stays (hnodup : (d.places.map Place.id).Nodup) (hchange : d.newList ≠ d.places.map Place.id) {n k : Nat}
    {p q : Place} (hp : d.places[k]? = some p) (hq : d.rebuild.places[n]? = some q) (hid : p.id = q.id) :
    q = { p with marks := q.marks } ∧
    ∀ (port : Port) (kind : ChangeKind), q.marked port kind = (p.marked port kind || (decide (kind = .map) && decide (n ≠ k)) ||
      (decide (kind = .reminder) && ((lampMaskOf d.rebuild.places).getLsbD n != d.agg.lampMask.getLsbD n))) := by
  have hplace := Device.rebuild_place hchange hq
  rw [← hid, Device.placeAt_stays hnodup hp] at hplace
  refine ⟨?_, fun port kind => ?_⟩
  · refine (Place.eq_of_lampMoved hplace).trans ?_
    split <;> rfl
  · rw [hplace, Place.marked_lampMoved]
    split
    · rename_i h; simp [h]
    · rename_i h; simp [Place.marked_mark, Ne.symm h]

/-! ## A new place (R45, R172) -/

/-- The faults live on a place are those with which it joined: each stands in both sticky sets, and FAULT is marked while one is
live. -/
structure Place.JoinedWith (p : Place) : Prop where
  sticky : p.sticky = { a := p.live, b := p.live }
  marked : ∀ (port : Port) (k : ChangeKind), p.marked port k = (decide (k = .fault) && decide (p.live ≠ 0))

theorem Place.live_of_hasFault {p : Place} {k : FaultKind} (h : p.hasFault k = true) : p.live ≠ 0 := fun hz => by
  simp [Place.hasFault, hz] at h

theorem Place.JoinedWith.setFault {p : Place} (h : p.JoinedWith) (k : FaultKind) (on : Bool) (hk : p.hasFault k = false) :
    (p.setFault k on).JoinedWith := by
  cases on with
  | false =>
    have hlive : withoutBit p.live k.bit = p.live := BitVec.eq_of_getLsbD_eq fun i _ => by
      rw [withoutBit_bit]
      by_cases hi : i = k.bit
      · rw [hi, show p.live.getLsbD k.bit = false from hk]; rfl
      · simp [hi]
    have : p.setFault k false = p := by rw [Place.setFault, if_neg Bool.false_ne_true, hlive]
    rw [this]; exact h
  | true =>
    have hrises : p.setFault k true = ({ p with live := withBit p.live k.bit
                                                sticky := p.sticky.map (fun s => withBit s k.bit) }).mark .fault := by
      rw [Place.setFault, if_pos rfl, if_neg (by rw [hk]; exact Bool.false_ne_true)]
    refine ⟨by rw [hrises, h.sticky]; rfl, fun port j => ?_⟩
    have hnonzero := Place.live_of_hasFault (p := p.setFault k true) (k := k) (by rw [Place.hasFault_setFault, if_pos rfl])
    rw [Place.marked_setFault, h.marked, hk, decide_eq_true hnonzero]
    cases decide (j = .fault) <;> simp

theorem freshPlace_joinedWith (id : Identity) (v : CalValues) (stamp : Nat) : (freshPlace id v stamp).JoinedWith :=
  ⟨rfl, fun port k => by cases port <;> simp [Place.marked, Both.get, freshPlace]⟩

theorem Device.newPlace_joinedWith (d : Device) (id : Identity) : (d.newPlace id).JoinedWith := by
  unfold Device.newPlace
  have hfresh : ∀ k, (freshPlace id ((d.station id.station).valuesOf id.seat) d.stamp).hasFault k = false := fun k => by
    simp [Place.hasFault, freshPlace]
  refine (((freshPlace_joinedWith id _ _).setFault .cellCal _ (hfresh _)).setFault .linkPattern _ ?_).setFault .nodeRestart _ ?_
  · rw [Place.hasFault_setFault, if_neg (by decide), hfresh]
  · rw [Place.hasFault_setFault, if_neg (by decide), Place.hasFault_setFault, if_neg (by decide), hfresh]

theorem Device.newPlace_eq (d : Device) (id : Identity) :
    d.newPlace id = { freshPlace id ((d.station id.station).valuesOf id.seat) d.stamp with
      live := (d.newPlace id).live, sticky := (d.newPlace id).sticky, marks := (d.newPlace id).marks } := by
  unfold Device.newPlace
  rw [Place.setFault_eq _ .nodeRestart, Place.setFault_eq _ .linkPattern, Place.setFault_eq _ .cellCal]

/-- A new place after the rebuild: the values of a joining place, its live faults in both sticky sets, MAP, FAULT while a fault is live,
and REMINDER where its lamp-mask entry moved. -/
theorem Device.rebuild_joins (hchange : d.newList ≠ d.places.map Place.id) {n : Nat} {q : Place} (hq : d.rebuild.places[n]? = some q)
    (hnew : ∀ p ∈ d.places, p.id ≠ q.id) :
    q = { freshPlace q.id ((d.station q.id.station).valuesOf q.id.seat) d.stamp with
      live := q.live, sticky := { a := q.live, b := q.live }, marks := q.marks } ∧
    (∀ k : FaultKind, q.hasFault k = (d.newPlace q.id).hasFault k) ∧
    ∀ (port : Port) (kind : ChangeKind), q.marked port kind = true ↔ kind = .map ∨ (kind = .fault ∧ q.live ≠ 0) ∨
      (kind = .reminder ∧ (lampMaskOf d.rebuild.places).getLsbD n ≠ d.agg.lampMask.getLsbD n) := by
  have hplace := Device.rebuild_place hchange hq
  rw [Device.placeAt_joins hnew] at hplace
  obtain ⟨hsticky, hmarked⟩ := d.newPlace_joinedWith q.id
  have hlive : q.live = (d.newPlace q.id).live := by
    conv_lhs => rw [hplace, Place.lampMoved_eq]
    rfl
  refine ⟨?_, fun k => Place.hasFault_of_live hlive k, fun port kind => ?_⟩
  · have hnewPlace : q = { d.newPlace q.id with marks := q.marks } := Place.eq_of_lampMoved (p := (d.newPlace q.id).mark .map) hplace
    conv_lhs => rw [hnewPlace, Device.newPlace_eq, hsticky]
    rw [← hlive]
  · rw [hplace, Place.marked_lampMoved, Place.marked_mark, hmarked, ← hplace, ← hlive]
    simp only [Bool.or_eq_true, Bool.and_eq_true, decide_eq_true_eq, bne_iff_ne]
    tauto

end

/-! ## The reference zeros that go back to ST (R45) -/

theorem Station.takeBack_values_other {s : Station} {p : Place} {id : Identity} (hserial : s.serial = some id.serial)
    (hstation : p.id.station = id.station) (hne : p.id ≠ id) : (s.takeBack p).values[id.seat] = s.values[id.seat] := by
  unfold Station.takeBack
  split
  · rename_i h
    have hser : id.serial = p.id.serial := Option.some.inj (hserial.symm.trans h.2)
    have hseat : p.id.seat ≠ id.seat := fun e => hne (by
      cases hp : p.id; cases id; rw [hp] at hstation e hser; simp_all)
    exact Vector.getElem_set_ne p.id.seat.isLt id.seat.isLt fun e => hseat (Fin.ext e)
  · rfl

theorem takeBack_set_same (v : Vector Station 12) (p : Place) :
    (v.set p.id.station (v[p.id.station].takeBack p))[p.id.station] = v[p.id.station].takeBack p := by simp

/-- Places of other identities leave the values of a seat that the station's record still names. -/
theorem takeAllBack_values_other {id : Identity} {ps : List Place} (hne : ∀ p ∈ ps, p.id ≠ id) {v : Vector Station 12}
    (hserial : v[id.station].serial = some id.serial) :
    (takeAllBack v ps)[id.station].values[id.seat] = v[id.station].values[id.seat] := by
  induction ps generalizing v with
  | nil => rfl
  | cons p ps ih =>
    have hrest := fun q hq => hne q (List.mem_cons_of_mem _ hq)
    rw [takeAllBack]
    by_cases h : p.id.station = id.station
    · have hset : (v.set p.id.station (v[p.id.station].takeBack p))[id.station] = v[id.station].takeBack p := by
        simp [← h]
      rw [ih hrest (by rw [hset, Station.takeBack_eq]; exact hserial), hset]
      exact Station.takeBack_values_other hserial h (hne p List.mem_cons_self)
    · have hset : (v.set p.id.station (v[p.id.station].takeBack p))[id.station] = v[id.station] :=
        Vector.getElem_set_ne _ _ fun e => h (Fin.ext e)
      rw [ih hrest (by rw [hset]; exact hserial), hset]

theorem Station.takeBack_zeros {s : Station} {p : Place} (hl : s.listed = true) (hserial : s.serial = some p.id.serial) :
    ∀ values ∈ (s.takeBack p).values[p.id.seat], values.zeros = p.refZeros := by
  intro values h
  unfold Station.takeBack at h
  rw [if_pos ⟨hl, hserial⟩] at h
  simp only [Fin.getElem_fin, Vector.getElem_set_self, Option.mem_def, Option.map_eq_some_iff] at h
  obtain ⟨_, -, rfl⟩ := h
  rfl

/-- A removed place of a station that is still listed with its serial has its reference zeros there. -/
theorem takeAllBack_zeros {p : Place} {ps : List Place} (hp : p ∈ ps) (hnodup : (ps.map Place.id).Nodup) {v : Vector Station 12}
    (hl : v[p.id.station].listed = true) (hserial : v[p.id.station].serial = some p.id.serial) :
    ∀ values ∈ (takeAllBack v ps)[p.id.station].values[p.id.seat], values.zeros = p.refZeros := by
  induction ps generalizing v with
  | nil => cases hp
  | cons r ps ih =>
    obtain ⟨hr, hnodup⟩ := List.nodup_cons.1 hnodup
    rw [takeAllBack]
    have hkeeps : ∀ c : Code, (v.set r.id.station (v[r.id.station].takeBack r))[c] =
        { v[c] with values := (v.set r.id.station (v[r.id.station].takeBack r))[c].values } := by
      intro c
      by_cases h : r.id.station = c
      · subst h; rw [takeBack_set_same v r]; exact Station.takeBack_eq _ _
      · rw [show (v.set r.id.station (v[r.id.station].takeBack r))[c] = v[c] from
          Vector.getElem_set_ne _ _ fun e => h (Fin.ext e)]
    rcases List.mem_cons.1 hp with rfl | hp
    · rw [takeAllBack_values_other (fun q hq h => hr (by rw [← h]; exact List.mem_map_of_mem hq))
        (by rw [hkeeps]; exact hserial), takeBack_set_same v p]
      exact Station.takeBack_zeros hl hserial
    · exact ih hp hnodup (by rw [hkeeps]; exact hl) (by rw [hkeeps]; exact hserial)

section
variable {d : Device}

theorem Device.rebuild_station_changed (hchange : d.newList ≠ d.places.map Place.id) (c : Code) :
    d.rebuild.station c = (takeAllBack d.st.stations (d.places.filter (fun p => !d.newList.contains p.id)))[c] := by
  rw [Device.rebuild_changed hchange, Device.setGlobal_station, Device.setGlobal_station]
  rfl

/-- An identity of the new list is offered by its station, with its serial. -/
theorem Device.serial_of_newList {id : Identity} (h : id ∈ d.newList) : (d.station id.station).serial = some id.serial := by
  obtain ⟨k, -, hk⟩ := mem_fillList _ _ _ _ h
  have hstation := d.offered_station k id hk
  subst hstation
  unfold Device.offered at hk
  split at hk
  · unfold Station.identities at hk
    split at hk
    · rename_i serial count hserial _
      obtain ⟨seat, -, hid⟩ := List.mem_map.1 hk
      rw [hserial, ← hid]
    · cases hk
  · cases hk

theorem Device.listed_of_newList {id : Identity} (h : id ∈ d.newList) : (d.station id.station).listed = true := by
  obtain ⟨k, -, hk⟩ := mem_fillList _ _ _ _ h
  have hstation := d.offered_station k id hk
  subst hstation
  by_contra hn
  simp [Device.offered, hn] at hk

/-- The values that ST holds for a listed place stay through a rebuild. -/
theorem Device.rebuild_values (hchange : d.newList ≠ d.places.map Place.id) {id : Identity} (h : id ∈ d.newList) :
    (d.rebuild.station id.station).valuesOf id.seat = (d.station id.station).valuesOf id.seat := by
  unfold Station.valuesOf
  rw [Device.rebuild_station_changed hchange, takeAllBack_values_other (fun p hp hid => ?_) (Device.serial_of_newList h)]
  · rfl
  · simp [hid, h] at hp

/-- A place that leaves a station still listed with its serial hands its reference zeros back. -/
theorem Device.rebuild_hands_back (hnodup : (d.places.map Place.id).Nodup) (hchange : d.newList ≠ d.places.map Place.id) {p : Place}
    (hp : p ∈ d.places) (hgone : p.id ∉ d.newList) (hl : (d.station p.id.station).listed = true)
    (hserial : (d.station p.id.station).serial = some p.id.serial) :
    ∀ values ∈ (d.rebuild.station p.id.station).values[p.id.seat], values.zeros = p.refZeros := by
  rw [Device.rebuild_station_changed hchange]
  exact takeAllBack_zeros (by simp [hp, hgone]) (hnodup.sublist (List.filter_sublist.map _)) hl hserial

end

end Sys2Proof.Machine
end

section
/-! SUPPORT. Which seats an exchange can move (R22, R43): it leaves the list as it is, or it moves one station into or out of the list
and leaves the places of every other station alone. -/

namespace Sys2Proof.Machine

/-! ## The places of every other station -/

/-- From `d` to `e` each place of a station but `c` keeps its number and its whole record. -/
def Device.PlacesElsewhere (c : Code) (d e : Device) : Prop :=
  ∀ (n : Nat) (p : Place), p.id.station ≠ c → d.places[n]? = some p → e.places[n]? = some p

section
variable {c : Code} {d e f : Device}

theorem Device.placesElsewhere_of_eq (h : e.places = d.places) : Device.PlacesElsewhere c d e := fun _ _ _ hp => by rw [h]; exact hp

theorem Device.PlacesElsewhere.trans (h : Device.PlacesElsewhere c d e) (h' : Device.PlacesElsewhere c e f) :
    Device.PlacesElsewhere c d f := fun n p hc hp => h' n p hc (h n p hc hp)

theorem Device.placesElsewhere_mapPlaces (f : Place → Place) : Device.PlacesElsewhere c d (d.mapPlaces (Place.ofStation c f)) := by
  intro n p hc hp
  rw [Device.mapPlaces_places, List.getElem?_map, hp]
  exact congrArg some (if_neg hc)

theorem Device.placesElsewhere_askLoading (pattern : Bool) : Device.PlacesElsewhere c d (d.askLoading c pattern) := by
  unfold Device.askLoading Device.continueLoading
  repeat' split
  · exact Device.placesElsewhere_of_eq rfl
  · exact Device.placesElsewhere_of_eq rfl
  · exact Device.placesElsewhere_mapPlaces (d := d) _

theorem Device.dropMovedIn_places (d : Device) (c : Code) (serial : Serial) (l : List Code) :
    (d.dropMovedIn c serial l).places = d.places := by
  induction l generalizing d with
  | nil => rfl
  | cons k l ih => rw [Device.dropMovedIn_cons, ih]; split <;> rfl

theorem Device.placesElsewhere_takeSeat (payload : List Byte) (pattern : Bool) :
    Device.PlacesElsewhere c d (d.takeSeat c payload pattern) := by
  have hmoved : (d.dropMoved c (identitySerial payload)).places = d.places := d.dropMovedIn_places c _ _
  unfold Device.takeSeat
  simp only
  split
  · exact Device.placesElsewhere_of_eq hmoved
  · exact (Device.placesElsewhere_of_eq (e := (d.dropMoved c (identitySerial payload)).setStation c _) hmoved).trans
      (Device.placesElsewhere_askLoading pattern)

end

/-! ## The seats of one station -/

theorem Station.sameSeats.trans {r s t : Station} (h : r.sameSeats s) (h' : s.sameSeats t) : r.sameSeats t :=
  ⟨h'.1.trans h.1, h'.2.1.trans h.2.1, h'.2.2.trans h.2.2⟩

/-- ST's work on the station `c` from `d` to `e`: the places of the other stations stay, and so does what every station offers to the
list, unless `c` is not listed before or not listed after. -/
structure Device.Reseats (c : Code) (d e : Device) : Prop where
  places : Device.PlacesElsewhere c d e
  seats  : (∀ k, e.offered k = d.offered k) ∨ (d.station c).listed = false ∨ (e.station c).listed = false

section
variable {c : Code} {d e : Device}

theorem Device.Reseats.stays (hp : Device.PlacesElsewhere c d e) (he : Device.Elsewhere c d e)
    (hs : (d.station c).sameSeats (e.station c)) : Device.Reseats c d e :=
  ⟨hp, .inl (Device.offered_of_elsewhere he hs)⟩

theorem Device.Reseats.leaves (hp : Device.PlacesElsewhere c d e) (h : (e.station c).listed = false) : Device.Reseats c d e :=
  ⟨hp, .inr (.inr h)⟩

theorem Device.Reseats.refl : Device.Reseats c d d := .stays (Device.placesElsewhere_of_eq rfl) .refl ⟨rfl, rfl, rfl⟩

theorem Device.toAbsent_unlisted (d : Device) (c : Code) : ((d.toAbsent c).station c).listed = false := by
  simp [Station.absent, Station.listed]

theorem Device.reseats_toAbsent (d : Device) (c : Code) : Device.Reseats c d (d.toAbsent c) :=
  .leaves (Device.placesElsewhere_of_eq rfl) (d.toAbsent_unlisted c)

theorem Device.toFaulted_unlisted (d : Device) (c : Code) : ((d.toFaulted c).station c).listed = false := by
  simp [Device.toFaulted, Station.listed]

theorem Device.reseats_toFaulted (d : Device) (c : Code) : Device.Reseats c d (d.toFaulted c) :=
  .leaves (Device.placesElsewhere_of_eq rfl) (d.toFaulted_unlisted c)

theorem Device.elsewhere_askLoading (pattern : Bool) : Device.Elsewhere c d (d.askLoading c pattern) := by
  unfold Device.askLoading
  split
  · exact .refl
  · exact d.elsewhere_continueLoading c

/-- Loading keeps the seats: a retained station stays listed through LOADING and TESTING (R22). -/
theorem Device.seats_askLoading (pattern : Bool) (hs : (d.station c).state = .loading) :
    (d.station c).sameSeats ((d.askLoading c pattern).station c) := by
  unfold Device.askLoading Device.continueLoading
  repeat' split
  · exact ⟨rfl, rfl, rfl⟩
  · exact ⟨rfl, rfl, rfl⟩
  · simp [Device.loadingComplete, Station.sameSeats, Station.listed, hs]

theorem Device.reseats_askLoading (pattern : Bool) (hs : (d.station c).state = .loading) : Device.Reseats c d (d.askLoading c pattern) :=
  .stays (Device.placesElsewhere_askLoading pattern) (Device.elsewhere_askLoading pattern) (Device.seats_askLoading pattern hs)

/-- A station that is loaded from work that keeps its seats keeps them. -/
theorem Device.Reseats.askLoading (hp : Device.PlacesElsewhere c d e) (he : Device.Elsewhere c d e)
    (hseats : (d.station c).sameSeats (e.station c)) (pattern : Bool) (hs : (e.station c).state = .loading) :
    Device.Reseats c d (e.askLoading c pattern) :=
  .stays (hp.trans (Device.placesElsewhere_askLoading pattern)) (he.trans (Device.elsewhere_askLoading pattern))
    (hseats.trans (Device.seats_askLoading pattern hs))

/-- A station that takes a seat of its own is FAULTED, or loads with no place retained (R25, R26). -/
theorem Device.takeSeat_unlisted (payload : List Byte) (pattern : Bool) : ((d.takeSeat c payload pattern).station c).listed = false := by
  unfold Device.takeSeat
  simp only
  split
  · exact Device.toFaulted_unlisted _ c
  · rw [(Device.seats_askLoading pattern (by simp [Station.toLoading])).1]
    simp [Station.toLoading, Station.listed]

theorem Device.reseats_recorded_takeSeat (s : Station) (payload : List Byte) (pattern : Bool) :
    Device.Reseats c d ((d.setStation c s).takeSeat c payload pattern) :=
  .leaves (Device.placesElsewhere_takeSeat (d := d.setStation c s) payload pattern) (Device.takeSeat_unlisted payload pattern)

theorem Device.reseats_recorded_toFaulted (s : Station) : Device.Reseats c d ((d.setStation c s).toFaulted c) :=
  .leaves (Device.placesElsewhere_of_eq rfl) (Device.toFaulted_unlisted _ c)

theorem Device.reseats_toActive (hl : (d.station c).listed = true) : Device.Reseats c d (d.toActive c) :=
  .stays (Device.placesElsewhere_mapPlaces (d := d) _) (d.elsewhere_toActive c) (by
    refine ⟨?_, ?_, ?_⟩
    · rw [hl]; simp [Device.toActive, Station.listed]
    · simp [Device.toActive]
    · simp [Device.toActive])

theorem Device.reseats_reload (hs : (d.station c).state = .loading ∨ (d.station c).state = .testing) (n : Nat) :
    Device.Reseats c d (d.reload c (d.station c).retained n) :=
  .stays (Device.placesElsewhere_mapPlaces (d := d) _) (d.elsewhere_reload c _ n) (by
    rcases hs with hs | hs <;> simp [Device.reload, Station.toLoading, Station.sameSeats, Station.listed, hs])

theorem Device.seats_testNext (step : TestStep) (cmd : LinkCommand) (hs : (d.station c).state = .testing) :
    (d.station c).sameSeats ((d.testNext c step cmd).station c) := by
  simp [Device.testNext, Station.sameSeats, Station.listed, hs]

/-! ## The outcomes of ST's exchanges -/

/-- A station that is probed is not listed. -/
theorem Device.reseats_probeOutcome (o : LinkOutcome) : Device.Reseats c d (d.probeOutcome c o) := by
  unfold Device.probeOutcome
  split
  · exact d.reseats_toAbsent c
  · split
    · simp only
      split
      · exact Device.reseats_recorded_takeSeat _ _ _
      · exact Device.reseats_recorded_toFaulted _
    · exact Device.reseats_recorded_toFaulted _

/-- A SILENT station that is loaded again keeps its places, retained (R34). -/
theorem Device.reseats_reloaded (boot : Bool) (hs : (d.station c).state = .silent) : Device.Reseats c d (d.reloaded c boot) := by
  have hseats : (d.station c).sameSeats ((d.reloaded c boot).station c) := by
    cases boot <;> simp [Device.reloaded, Station.toLoading, Station.sameSeats, Station.listed, hs]
  cases boot with
  | true => exact .stays (Device.placesElsewhere_mapPlaces (d := d) _) (d.elsewhere_setStation c _) hseats
  | false => exact .stays (Device.placesElsewhere_of_eq rfl) (d.elsewhere_setStation c _) hseats

theorem Device.reseats_reprobeOutcome (o : LinkOutcome) (hs : (d.station c).state = .silent) :
    Device.Reseats c d (d.reprobeOutcome c o) := by
  cases o with
  | failed k => exact .refl
  | answered a n =>
    by_cases hr : a.result = .ack
    · by_cases hown : d.ownSeat c a
      · rw [Device.reprobe_own n hown]
        split
        · obtain ⟨hplaces, hseats⟩ := Device.reseats_reloaded a.boot hs
          exact ⟨hplaces, hseats⟩
        · exact Device.reseats_toActive (by simp [Station.listed, hs])
      · unfold Device.reprobeOutcome
        simp only [hr, if_true]
        split
        · exact Device.reseats_recorded_toFaulted _
        · rename_i hacc
          rw [Bool.not_eq_true', Bool.not_eq_false] at hacc
          rw [if_neg fun hsame => hown (Device.ownSeat_intro hr hacc hsame)]
          exact Device.reseats_recorded_takeSeat _ _ _
    · unfold Device.reprobeOutcome
      simp only [hr, if_false]
      exact .refl

theorem Device.reseats_confirmOutcome (o : LinkOutcome) (hs : (d.station c).state = .loading) :
    Device.Reseats c d (d.confirmOutcome c o) := by
  unfold Device.confirmOutcome
  split
  · exact d.reseats_toAbsent c
  · split
    · simp only
      split
      · exact Device.reseats_recorded_toFaulted _
      · split
        · exact Device.reseats_askLoading _ hs
        · exact Device.reseats_recorded_takeSeat _ _ _
    · exact d.reseats_toAbsent c

theorem Device.seats_takeValues (payload : List Byte) (cmd : LinkCommand) :
    (d.station c).sameSeats ((d.takeValues c payload cmd).station c) := by
  cases cmd <;> simp [Device.takeValues, Station.sameSeats, Station.listed]

theorem Device.elsewhere_takeValues (payload : List Byte) (cmd : LinkCommand) : Device.Elsewhere c d (d.takeValues c payload cmd) := by
  cases cmd with
  | calRead seat => exact d.elsewhere_setStation c _
  | _ => exact .refl

theorem Device.reseats_loadingOutcome (cmd : LinkCommand) (o : LinkOutcome) (hs : (d.station c).state = .loading) :
    Device.Reseats c d (d.loadingOutcome c cmd o) := by
  by_cases hc : cmd = .identify
  · subst hc; exact Device.reseats_confirmOutcome o hs
  · cases o with
    | failed k => rw [Device.loading_failed]; exact d.reseats_toAbsent c
    | answered a n =>
      cases hb : a.boot with
      | true => rw [Device.loading_booted n hc hb]; exact Device.reseats_reload (.inl hs) _
      | false =>
        rw [Device.loading_answered n hc hb]
        split
        · exact Device.Reseats.askLoading (e := d.takeValues c a.payload cmd) (Device.placesElsewhere_of_eq (Device.takeValues_places _ _))
            (Device.elsewhere_takeValues _ _) (Device.seats_takeValues _ _) false ((Device.takeValues_state _ _).trans hs)
        · exact d.reseats_toAbsent c

/-- The test of a station that is not retained ends with it listed; that of a retained station keeps its seats, or ends with it not
listed (R22, R30). -/
theorem Device.reseats_testingOutcome (o : LinkOutcome) (hs : (d.station c).state = .testing) :
    Device.Reseats c d (d.testingOutcome c o) := by
  have hnext : ∀ step cmd, Device.Reseats c d (d.testNext c step cmd) := fun step cmd =>
    .stays (Device.placesElsewhere_of_eq rfl) (d.elsewhere_testNext c step cmd) (Device.seats_testNext step cmd hs)
  have hactive : Device.Reseats c d (d.toActive c) := by
    by_cases hl : (d.station c).listed = true
    · exact Device.reseats_toActive hl
    · exact ⟨Device.placesElsewhere_mapPlaces (d := d) _, .inr (.inl (Bool.eq_false_iff.2 hl))⟩
  unfold Device.testingOutcome
  split
  · exact d.reseats_toFaulted c
  · split
    · exact d.reseats_toAbsent c
    · split
      · exact Device.reseats_reload (.inr hs) _
      · split
        · split
          · exact hnext _ _
          · split
            · exact hnext _ _
            · exact d.reseats_toAbsent c
        · exact hnext _ _
        · split
          · exact hnext _ _
          · exact .stays (Device.placesElsewhere_mapPlaces (d := d) _) (Device.elsewhere_testNext (d.mapPlaces _) c _ _)
              (Device.seats_testNext (d := d.mapPlaces _) _ _ hs)
        · split
          · exact hactive
          · exact d.reseats_toAbsent c
        · exact .refl

theorem Device.reseats_stationOutcome (cmd : LinkCommand) (o : LinkOutcome) : Device.Reseats c d (d.stationOutcome c cmd o) := by
  unfold Device.stationOutcome
  split
  · exact Device.reseats_probeOutcome o
  · exact Device.reseats_probeOutcome o
  · rename_i hs; exact Device.reseats_reprobeOutcome o hs
  · rename_i hs; exact Device.reseats_loadingOutcome cmd o hs
  · rename_i hs; exact Device.reseats_testingOutcome o hs
  · exact .refl
  · exact .refl

/-- An ABSENT station that is probed is listed no more than before. -/
theorem Device.seats_askProbe (k : Code) : (d.station k).sameSeats ((d.askProbe c).station k) := by
  rw [Device.askProbe_station]
  split
  · rename_i h
    obtain ⟨rfl, hs⟩ := h
    simp [Station.sameSeats, Station.listed, hs]
  · exact ⟨rfl, rfl, rfl⟩

theorem Device.seats_startupNext (k : Code) : (d.station k).sameSeats ((d.startupNext c).station k) := by
  unfold Device.startupNext
  split
  · simp only
    split
    · exact Device.seats_askProbe (d := { d with st := { d.st with startup := _ } }) k
    · exact ⟨rfl, rfl, rfl⟩
  · exact ⟨rfl, rfl, rfl⟩

theorem Device.startupNext_places (d : Device) (c : Code) : (d.startupNext c).places = d.places := by
  unfold Device.startupNext
  split
  · simp only
    split
    · rw [Device.askProbe_places]
    · rfl
  · rfl

theorem Device.Reseats.lateExpiry (h : Device.Reseats c d e) : Device.Reseats c d (e.lateExpiry c) := by
  unfold Device.lateExpiry
  split
  · exact .leaves (h.places.trans (Device.placesElsewhere_of_eq rfl)) (e.toAbsent_unlisted c)
  · exact h

/-! ## The outcomes of scans and of CAL_STORE keep every seat -/

theorem Device.offered_scanOutcome (cmd : LinkCommand) (o : LinkOutcome) (ha : (d.station c).state = .active) (k : Code) :
    (d.scanOutcome c cmd o).offered k = d.offered k := by
  have hrestart := Device.offered_of_elsewhere (d.elsewhere_nodeRestart c) (Device.seats_nodeRestart (Station.listed_active ha)) k
  have hfailed := Device.offered_of_elsewhere (d.elsewhere_scanFailed c) (Device.seats_scanFailed ha) k
  unfold Device.scanOutcome
  split
  · split
    · exact hrestart
    · split
      · split
        · rfl
        · split
          · rfl
          · exact hfailed
      · split
        · exact Device.offered_of_elsewhere Device.elsewhere_scanSucceeded Device.seats_scanSucceeded k
        · rfl
      · exact hfailed
  · split
    · rfl
    · exact hfailed

theorem Device.offered_storeOutcome (hids : d.places.map Place.id = d.newList) (seat : Seat) (o : LinkOutcome) (k : Code) :
    (d.storeOutcome c seat o).offered k = d.offered k := by
  unfold Device.storeOutcome
  split
  · rename_i hstoring
    obtain ⟨p, hp, hpc⟩ := List.any_eq_true.1 hstoring
    have hl : (d.station c).listed = true := by
      have hstation : p.id.station = c := by simp at hpc; exact hpc.1.1
      rw [← hstation]; exact Device.listed_of_place hids hp
    have hrestart : ∀ f : Place → Place, ((d.mapPlaces f).nodeRestart c).offered k = d.offered k := fun f =>
      Device.offered_of_elsewhere (Device.elsewhere_nodeRestart (d.mapPlaces f) c) (Device.seats_nodeRestart (d := d.mapPlaces f) hl) k
    cases o with
    | failed _ => rfl
    | answered a _ =>
      simp only
      split
      · exact hrestart _
      · rfl
  · rfl

/-! ## What the requesting block leaves of the list -/

/-- From `d` to `e` each place whose station is listed after keeps its number and its whole record. -/
def Device.ListedKept (d e : Device) : Prop :=
  ∀ (n : Nat) (p : Place), d.places[n]? = some p → (e.station p.id.station).listed = true → e.places[n]? = some p

theorem Device.Reseats.listedKept (h : Device.Reseats c d e) (hids : d.places.map Place.id = d.newList) :
    (∀ k, e.offered k = d.offered k) ∨ d.ListedKept e := by
  obtain ⟨hplaces, hstays | hmoves⟩ := h
  · exact .inl hstays
  · refine .inr fun n p hp hl => hplaces n p (fun hc => ?_) hp
    subst hc
    rcases hmoves with hd | he
    · rw [Device.listed_of_place hids (List.mem_of_getElem? hp)] at hd; cases hd
    · rw [hl] at he; cases he

/-- The requesting block leaves the list as the station table gives it, or leaves alone every place whose station is then listed. -/
theorem Device.handed_list (hstations : d.stationsLaw) (hids : d.places.map Place.id = d.newList) (x : Exchange) (o : LinkOutcome) :
    (∀ k, (d.handed x o).offered k = d.offered k) ∨ d.ListedKept (d.handed x o) := by
  unfold Device.handed Device.deliver
  split
  · rename_i hb
    rw [hb]
    simp only
    have hseats := fun k => Device.offered_of_seats (d.seats_startupNext (c := x.station) k)
    have hplaces := d.startupNext_places x.station
    have hwork : Device.Reseats x.station (d.startupNext x.station)
        (((d.startupNext x.station).stationOutcome x.station x.cmd o).lateExpiry x.station) :=
      (Device.reseats_stationOutcome x.cmd o).lateExpiry
    have hids' : (d.startupNext x.station).places.map Place.id = (d.startupNext x.station).newList := by
      rw [hplaces, hids, Device.newList_of_offered hseats]
    rcases hwork.listedKept hids' with hstays | hkept
    · exact .inl fun k => (hstays k).trans (hseats k)
    · exact .inr fun n p hp => hkept n p (by rw [hplaces]; exact hp)
  · rename_i hb
    refine .inl fun k => ?_
    split
    · split
      · rename_i hscan
        obtain ⟨-, -, -, -, -, -, -, -, -, hactive⟩ := hstations x.station
        exact Device.offered_scanOutcome _ _ (hactive hscan) k
      · rfl
    · rename_i hst; exact absurd hst hb
    · split
      · exact Device.offered_storeOutcome hids _ _ k
      · rfl

end

end Sys2Proof.Machine
end

section
/-! PROOF. The place map through every event: the generation counts the list changes (O59), and what a list change makes of the places
(O60). -/

namespace Sys2Proof.Machine

/-! ## Events that leave the list, and events that rebuild it -/

/-- From `d` to `e` the list of identities and its generation stay. -/
structure Device.KeepsList (d e : Device) : Prop where
  ids        : e.places.map Place.id = d.places.map Place.id
  generation : e.generation = d.generation

/-- An event has made `w` of `d` and rebuilt the list, start-up completing at the same event or not, which gives `e`. -/
structure Device.Relists (d w e : Device) : Prop where
  kept : d.KeepsList w
  agg  : w.agg = d.agg
  mode : w.mode = d.mode
  list : d.mapLaw → w.newList = w.places.map Place.id ∨ d.ListedKept w
  ends : e = w.rebuild ∨ e = w.rebuild.completeStartup

/-- What an event can do to the list. -/
abbrev Device.ListEvent (d e : Device) : Prop := d.KeepsList e ∨ ∃ w, d.Relists w e

section
variable {d e : Device}

/-- An event's moment changes nothing that the list reads. -/
theorem Device.ListEvent.of_atMoment {m : Moment} (h : (d.atMoment m).ListEvent e) : d.ListEvent e := by
  rcases h with ⟨hids, hgeneration⟩ | ⟨w, ⟨hids, hgeneration⟩, hagg, hmode, hlist, hends⟩
  · exact .inl ⟨by simpa using hids, by simpa using hgeneration⟩
  · refine .inr ⟨w, ⟨by simpa using hids, by simpa using hgeneration⟩, by simpa using hagg, by simpa using hmode, fun hmap => ?_,
      hends⟩
    have h := hlist ((d.leavesTable_atMoment m).mapLaw hmap)
    rwa [Device.ListedKept, Device.atMoment_places] at h

theorem Device.keepsList_of_still (h : e.still = d.still) (hids : e.places.map Place.id = d.places.map Place.id) : d.KeepsList e :=
  ⟨hids, (congrArg Device.generation h :)⟩

theorem Device.keepsList_modifyPlace (n : Nat) {f : Place → Place} (hf : ∀ p, (f p).id = p.id) : d.KeepsList (d.modifyPlace n f) :=
  ⟨modify_ids_of hf n _, rfl⟩

theorem Device.handed_ids (x : Exchange) (o : LinkOutcome) : (d.handed x o).places.map Place.id = d.places.map Place.id := by
  have hdeliver := Device.goes_deliver (held_work d.env) x o
  unfold Device.handed
  split
  · exact (Device.goes_lateExpiry (held_work _) x.station).ids.trans hdeliver.ids
  · exact hdeliver.ids

theorem Device.heard_places (x : Exchange) (o : LinkOutcome) : (d.heard x o).places = d.places := by rw [Device.heard_eq]; rfl

/-- The end of an exchange rebuilds the list. -/
theorem Device.relists_endExchange (x : Exchange) (o : LinkOutcome) : d.Relists ((d.heard x o).handed x o) (d.endExchange x o) := by
  have hstill := (d.heard x o).handed_still x o
  refine ⟨⟨?_, ?_⟩, ?_, by simp, fun hmap => ?_, ?_⟩
  · rw [Device.handed_ids, Device.heard_places]
  · exact (congrArg Device.generation hstill :).trans (by rw [Device.heard_eq]; rfl)
  · exact (congrArg Device.agg hstill :).trans (by rw [Device.heard_eq]; rfl)
  · obtain ⟨hstations, hids, -, -⟩ := hmap
    have hheard : (d.heard x o).places.map Place.id = (d.heard x o).newList := by
      rw [Device.heard_places, hids]
      exact (Device.newList_of_offered fun k => Device.offered_of_seats (by rw [Device.heard_station]; exact ⟨rfl, rfl, rfl⟩)).symm
    rcases Device.handed_list (Device.stationsLaw_heard x o hstations) hheard x o with hstays | hkept
    · exact .inl (by rw [Device.newList_of_offered hstays, Device.handed_ids, hheard])
    · exact .inr fun n p hp => hkept n p (by rw [Device.heard_places]; exact hp)
  · rw [Device.endExchange_eq, Device.settled]
    split
    · exact .inr rfl
    · exact .inl rfl

/-- The SILENT expiry rebuilds the list without the station, whose places alone are concerned (R35). -/
theorem Device.relists_toAbsent (c : Code) : d.Relists (d.toAbsent c) (d.toAbsent c).rebuild :=
  ⟨⟨rfl, rfl⟩, rfl, rfl, fun _ => .inr fun _ _ hp _ => hp, .inl rfl⟩

theorem Device.listEvent_attemptFailed (x : Exchange) (k : FailKind) : d.ListEvent (d.attemptFailed x k) := by
  unfold Device.attemptFailed
  split
  · refine .inl ⟨(d.leavesTable_retry x k).ids, ?_⟩
    unfold Device.retry
    simp only
    split
    · rfl
    · rw [Device.launchRetry_eq]
  · exact .inr ⟨_, Device.relists_endExchange x _⟩

theorem Device.listEvent_takeChar (x : Exchange) (ch : RxChar) : d.ListEvent (d.takeChar x ch) := by
  unfold Device.takeChar
  simp only
  split
  · exact .inl ⟨rfl, rfl⟩
  · exact .inl ⟨rfl, rfl⟩
  · exact Device.listEvent_attemptFailed _ _
  · exact .inr ⟨_, Device.relists_endExchange x _⟩

theorem Device.keepsList_askProbe (c : Code) : d.KeepsList (d.askProbe c) := by
  have hgoes := Device.goes_askProbe (held_work d.env) c
  exact Device.keepsList_of_still hgoes.still hgoes.ids

theorem Device.keepsList_probeMark (d : Device) (t : Nat) : d.KeepsList (d.probeMark t) := by
  unfold Device.probeMark
  simp only
  repeat' split
  · exact ⟨rfl, rfl⟩
  · obtain ⟨hids, hgeneration⟩ := Device.keepsList_askProbe (d := { d with
      st := { d.st with nextProbe := some (t + 500), lastProbe := some _ } }) _
    exact ⟨hids, hgeneration⟩
  · exact ⟨rfl, rfl⟩

theorem Device.keepsList_reProbeMark (d : Device) (c : Code) (t : Nat) : d.KeepsList (d.reProbeMark c t) := by
  unfold Device.reProbeMark
  simp only
  split <;> exact ⟨rfl, rfl⟩

theorem Device.keepsList_scanFailed (c : Code) : d.KeepsList (d.scanFailed c) := by
  have hgoes := Device.goes_scanFailed (held_work d.env) c
  exact Device.keepsList_of_still hgoes.still hgoes.ids

theorem Device.keepsList_takeUpTest (c : Code) : d.KeepsList (d.takeUpTest c) := by
  have hgoes := Device.goes_takeUpTest (held_work d.env) c
  exact Device.keepsList_of_still hgoes.still hgoes.ids

/-- Every event leaves the list of identities with its generation, or rebuilds the list. -/
theorem Device.Event.list {c : Instr} (h : d.Event c e) : d.ListEvent e := by
  have hm : ∀ {m : Moment} {e : Device}, (d.atMoment m).KeepsList e → d.ListEvent e := fun hk => .of_atMoment (.inl hk)
  cases h with
  | char m ch x => exact .of_atMoment (Device.listEvent_takeChar x ch)
  | attemptFailed c m x k => exact .of_atMoment (Device.listEvent_attemptFailed x k)
  | silentExpiry c t => exact .inr ⟨_, Device.relists_toAbsent c⟩
  | startupLimit => exact .inl ⟨d.leavesTable_completeStartup.ids, d.completeStartup_generation⟩
  | grant m choice => exact hm (by cases choice <;> exact ⟨rfl, rfl⟩)
  | heldRetry m x => exact hm ⟨(Device.leavesTable_launchRetry _ x).ids, by rw [Device.launchRetry_eq]⟩
  | selfRelax c t =>
    split
    · obtain ⟨hids, hgeneration⟩ := Device.keepsList_scanFailed (d := d.setExcitation c (.recovering (t + 22))) c
      exact .inl ⟨hids, hgeneration⟩
    · exact .inl ⟨rfl, rfl⟩
  | probeMark t => exact .inl (d.keepsList_probeMark t)
  | reProbeMark c t => exact .inl (d.keepsList_reProbeMark c t)
  | lapse t => exact .inl ⟨d.leavesTable_lapse.ids, by simp [Device.lapse]⟩
  | vehicleState f => exact hm ⟨(Device.leavesTable_supply _ _ _).ids, by simp [Device.supply]⟩
  | setParam p f row =>
    exact hm ⟨(Device.leavesTable_writeParam _ _ _).ids, by unfold Device.writeParam; simp only; split <;> rfl⟩
  | linkTest p f c =>
    obtain ⟨hids, hgeneration⟩ := Device.keepsList_takeUpTest
      (d := (d.atMoment f.moment).setStation c { d.station c with testPending := true }) c
    exact hm ⟨hids, hgeneration⟩
  | tick => exact .inl ⟨map_ids_of (Place.tick_id _) _, rfl⟩
  | tableRead p f => exact hm ⟨clearRun_ids p _ _ 0 _, rfl⟩
  | acceptMap f => exact hm ⟨map_ids_of (Place.acceptedMap_id _ · _) _, rfl⟩
  | freeze f => exact hm ⟨(Device.leavesTable_freeze _).ids, rfl⟩
  | unfreeze f => exact hm ⟨(Device.leavesTable_unfreeze _).ids, rfl⟩
  | freshnessLoss n p => exact .inl (Device.keepsList_modifyPlace n (Place.loseFreshness_id _))
  | nodeSilent n p => exact .inl (Device.keepsList_modifyPlace n fun p => by simp)
  | lampTimer n p => exact .inl (Device.keepsList_modifyPlace n fun p => by simp)
  | chimeTimer n p => exact .inl (Device.keepsList_modifyPlace n fun p => by simp)
  | trimMark n p t => exact .inl (Device.keepsList_modifyPlace n fun _ => rfl)
  | placeStatus p f => exact hm (Device.keepsList_modifyPlace _ fun _ => rfl)
  | placeFaultsRead p f => exact hm (Device.keepsList_modifyPlace _ fun _ => rfl)
  | placeFaultsClear p f => exact hm (Device.keepsList_modifyPlace _ fun _ => rfl)
  | setPolicy p f q => exact hm (Device.keepsList_modifyPlace _ (Place.writePolicy_id _ · _))
  | calZero p f => exact hm (Device.keepsList_modifyPlace _ (Place.startCal_id _ · _))
  | quiet | settle | unknownExpiry | recoveryEnd => exact .inl ⟨rfl, rfl⟩
  | frameSent m => exact hm ⟨rfl, rfl⟩
  | noEffect c m => exact hm ⟨rfl, rfl⟩
  | globalFaultsRead p f | globalFaultsClear p f | setAttn p f => exact hm ⟨rfl, rfl⟩

/-- What a command other than RESET does to the list. -/
theorem exec_list {c : Instr} {s t : State} (h : exec c s = .next t) (hc : c ≠ .reset) :
    s.dev.KeepsList t.dev ∨ ∃ w e, s.dev.Relists w e ∧ t.dev = e.finish := by
  rcases exec_event h hc with he | ⟨e, he, ht⟩
  · exact .inl (by rw [he]; exact ⟨rfl, rfl⟩)
  · rcases he.list with ⟨hids, hgeneration⟩ | ⟨w, hw⟩
    · exact .inl (by rw [ht]; exact ⟨hids, hgeneration⟩)
    · exact .inr ⟨w, e, hw, ht⟩

end

/-! ## The generation (R47, O59) -/

theorem nextGeneration_ne_zero (g : Byte) : nextGeneration g ≠ 0 := by
  unfold nextGeneration
  split
  · decide
  · bv_omega

theorem Device.rebuild_generation (d : Device) :
    d.rebuild.generation = if d.newList = d.places.map Place.id then d.generation else nextGeneration d.generation := by
  simp only [Device.rebuild, Device.setGlobal_generation]
  split <;> rfl

section
variable {d w e : Device}

theorem Device.Relists.ids (h : d.Relists w e) : e.places.map Place.id = w.newList := by
  rcases h.ends with rfl | rfl
  · exact w.rebuild_ids
  · exact (Device.leavesTable_completeStartup _).ids.trans w.rebuild_ids

theorem Device.Relists.generation (h : d.Relists w e) :
    e.generation = if e.places.map Place.id = d.places.map Place.id then d.generation else nextGeneration d.generation := by
  rw [h.ids, ← h.kept.ids, ← h.kept.generation, ← w.rebuild_generation]
  rcases h.ends with rfl | rfl
  · rfl
  · exact Device.completeStartup_generation _

end

/-- Settles O59: a command leaves the list and the generation, or rebuilds the list, and the rebuild moves the generation exactly when
the identities differ (`Device.Relists.generation`). -/
theorem theGenerationCountsListChanges : Obligations.TheGenerationCountsListChanges := by
  intro c s t h hc
  rcases exec_list h hc with ⟨hids, hgeneration⟩ | ⟨w, e, hw, ht⟩
  · exact ⟨fun _ => hgeneration, fun hne => absurd hids hne, fun hz => by rw [hgeneration]; exact hz⟩
  · have hgeneration := hw.generation
    rw [ht, Device.finish_places, Device.finish_generation]
    refine ⟨fun hids => by rw [hgeneration, if_pos hids], fun hne => by rw [hgeneration, if_neg hne]; rfl, fun hz => ?_⟩
    rw [hgeneration]
    split
    · exact hz
    · exact nextGeneration_ne_zero _

/-! ## The places after a list change (R45, R46, R155, O60) -/

/-- A place as it joins has nothing to evaluate when the mode changes: its verdict is NOT_FITTED and its stage OFF. -/
theorem Place.modeChanged_joining {p : Place} (e0 e : Env) (hverdict : p.verdict = .notFitted)
    (hfitted : p.policy.restraintFitted = false) (hreported : p.reported = .unknown) (hstage : p.stage = .off) (htimer : p.timer = 0) :
    p.modeChanged e0 e = p := by
  have heligible : ∀ e : Env, e.eligible p = false := fun e => by simp [Env.eligible, Place.remindedClass, hreported, hstage]
  have hjudged : p.evalVerdict e = p := by
    unfold Place.evalVerdict
    split
    · rfl
    · rw [if_pos (by rw [Env.verdictOf, if_pos hfitted, hverdict])]
  have hstaged : p.toStage e = p := by
    have hnext : e.nextStage p = (.off, 0) := by simp [Env.nextStage, heligible]
    rw [Place.toStage, hnext, ← hstage, ← htimer]
  rw [Place.modeChanged, hjudged, Place.remind, hstaged, Place.markReminder, if_neg]
  simp [Env.counted, heligible]

section
variable {d w e : Device}

/-- A place after the event is the rebuilt one, or the mode's change has been evaluated on it beside (R40, R109). -/
theorem Device.Relists.place (h : d.Relists w e) {n : Nat} {q : Place} (hq : e.places[n]? = some q) :
    ∃ r, w.rebuild.places[n]? = some r ∧ (q = r ∨ ∃ before after, q = r.modeChanged before after) := by
  rcases h.ends with rfl | rfl
  · exact ⟨q, hq, .inl rfl⟩
  · by_cases hm : w.rebuild.mode = .startUp
    · rw [(Device.completeStartup_inStartUp hm).1, List.getElem?_map, Option.map_eq_some_iff] at hq
      obtain ⟨r, hr, rfl⟩ := hq
      exact ⟨r, hr, .inr ⟨_, _, rfl⟩⟩
    · rw [Device.completeStartup_otherwise hm] at hq
      exact ⟨q, hq, .inl rfl⟩

theorem Device.Relists.places_of_mode (h : d.Relists w e) (hmode : e.mode = d.mode) : e.places = w.rebuild.places := by
  rcases h.ends with rfl | rfl
  · rfl
  · refine Device.completeStartup_otherwise fun hm => ?_
    rw [Device.completeStartup_mode, if_pos hm, ← h.mode, ← w.rebuild_mode, hm] at hmode
    cases hmode

theorem Device.Relists.station (h : d.Relists w e) (c : Code) : e.station c = w.rebuild.station c := by
  rcases h.ends with rfl | rfl
  · rfl
  · exact Device.completeStartup_station _ c

theorem Device.Relists.stamp (h : d.Relists w e) : e.stamp = w.stamp := by
  unfold Device.stamp
  rcases h.ends with rfl | rfl
  · rw [Device.rebuild_time]
  · rw [Device.completeStartup_time, Device.rebuild_time]

/-- The list has changed at an event that keeps the records of the places that stay listed. -/
structure Device.ListChange (d w e : Device) : Prop where
  relists : d.Relists w e
  nodup   : (d.places.map Place.id).Nodup
  kept    : d.ListedKept w
  changed : w.newList ≠ w.places.map Place.id

theorem Device.nodup_of_listLaw (h : d.listLaw) : (d.places.map Place.id).Nodup := by
  obtain ⟨-, hascending, -⟩ := h
  rw [List.Nodup, List.pairwise_map]
  exact hascending.imp fun hlt hid => by rw [hid] at hlt; exact lt_irrefl _ hlt

theorem Device.Relists.listChange (h : d.Relists w e) (hmap : d.mapLaw) (hlist : d.listLaw)
    (hchanged : e.places.map Place.id ≠ d.places.map Place.id) : d.ListChange w e := by
  rw [h.ids, ← h.kept.ids] at hchanged
  exact ⟨h, Device.nodup_of_listLaw hlist, (h.list hmap).resolve_left hchanged, hchanged⟩

theorem Device.rebuild_number_lt {n : Nat} {q : Place} (hq : d.rebuild.places[n]? = some q) : n < 16 := by
  have hlength : d.rebuild.places.length ≤ 16 := by
    rw [← List.length_map (f := Place.id), d.rebuild_ids]; exact d.newList_length
  exact lt_of_lt_of_le (List.getElem?_eq_some_iff.1 hq).1 hlength

/-- The faults with which a place joins, by its station's record (R172; assumption 17). -/
theorem Device.newPlace_hasFault_iff (d : Device) (id : Identity) (k : FaultKind) : (d.newPlace id).hasFault k = true ↔
    (k = .cellCal ∧ ∃ cell : Cell, ((d.station id.station).valuesOf id.seat).unusable[cell] = true) ∨
    (k = .linkPattern ∧ (d.station id.station).state = .testing ∧ (d.station id.station).test = some (.patternOff false)) ∨
    (k = .nodeRestart ∧ (d.station id.station).restarted = true) := by
  rw [Device.newPlace_hasFault]
  cases k with
  | cellCal =>
    simp only [reduceCtorEq, if_true, if_false, List.any_eq_true, Vector.mem_toList_iff, Vector.mem_iff_getElem, false_and, or_false,
      true_and]
    constructor
    · rintro ⟨b, ⟨i, hi, rfl⟩, hb⟩; exact ⟨⟨i, hi⟩, hb⟩
    · rintro ⟨cell, hb⟩; exact ⟨_, ⟨cell.val, cell.isLt, rfl⟩, hb⟩
  | _ => simp

namespace Device.ListChange

variable (h : d.ListChange w e)
include h

theorem nodup_before : (w.places.map Place.id).Nodup := by rw [h.relists.kept.ids]; exact h.nodup

theorem mem_newList {n : Nat} {q : Place} (hq : e.places[n]? = some q) : q.id ∈ w.newList := by
  rw [← h.relists.ids]; exact List.mem_map_of_mem (List.mem_of_getElem? hq)

/-- A place that stays keeps its record; the marks that the list change sets on it stand alone where the mode stays. -/
theorem stays {n k : Nat} {p q : Place} (hp : d.places[k]? = some p) (hq : e.places[n]? = some q) (hid : p.id = q.id) :
    q.agrees p ∧ (e.mode = d.mode → q = { p with marks := q.marks } ∧
      ∀ (port : Port) (kind : ChangeKind), q.marked port kind = (p.marked port kind || (decide (kind = .map) && decide (n ≠ k)) ||
        (decide (kind = .reminder) && ((lampMaskOf e.places).getLsbD n != d.agg.lampMask.getLsbD n)))) := by
  have hlisted : (w.station p.id.station).listed = true := by
    rw [hid]; exact Device.listed_of_newList (h.mem_newList hq)
  have hbefore := h.kept k p hp hlisted
  obtain ⟨r, hr, hqr⟩ := h.relists.place hq
  have hagrees : q.agrees r := by
    rcases hqr with rfl | ⟨e0, e1, rfl⟩
    · rfl
    · exact Place.agrees_modeChanged e0 e1 r
  obtain ⟨hrecord, hmarked⟩ := Device.rebuild_stays h.nodup_before h.changed hbefore hr (hid.trans hagrees.id_eq)
  refine ⟨Place.agrees.trans (by rw [hrecord]) hagrees, fun hmode => ?_⟩
  have hplaces := h.relists.places_of_mode hmode
  rw [hplaces, hr] at hq
  cases hq
  rw [hplaces, ← h.relists.agg]
  exact ⟨hrecord, hmarked⟩

/-- A new place, as the rebuild makes it: a completion of start-up beside changes nothing on it. -/
theorem joins {n : Nat} {q : Place} (hq : e.places[n]? = some q) (hnew : ∀ p ∈ d.places, p.id ≠ q.id) :
    q = { freshPlace q.id ((w.station q.id.station).valuesOf q.id.seat) w.stamp with
      live := q.live, sticky := { a := q.live, b := q.live }, marks := q.marks } ∧
    (∀ k : FaultKind, q.hasFault k = (w.newPlace q.id).hasFault k) ∧
    ∀ (port : Port) (kind : ChangeKind), q.marked port kind = true ↔ kind = .map ∨ (kind = .fault ∧ q.live ≠ 0) ∨
      (kind = .reminder ∧ (lampMaskOf e.places).getLsbD n ≠ d.agg.lampMask.getLsbD n) := by
  obtain ⟨r, hr, hqr⟩ := h.relists.place hq
  have hid : q.id = r.id := by
    rcases hqr with rfl | ⟨e0, e1, rfl⟩
    · rfl
    · exact (Place.agrees_modeChanged e0 e1 r).id_eq
  have hbefore : ∀ p ∈ w.places, p.id ≠ r.id := by
    intro p hp
    have hmem : p.id ∈ d.places.map Place.id := by rw [← h.relists.kept.ids]; exact List.mem_map_of_mem hp
    obtain ⟨p', hp', hpid⟩ := List.mem_map.1 hmem
    rw [← hpid, ← hid]
    exact hnew p' hp'
  obtain ⟨hrecord, hfaults, hmarked⟩ := Device.rebuild_joins h.changed hr hbefore
  have hq_eq : q = r := by
    rcases hqr with rfl | ⟨e0, e1, rfl⟩
    · rfl
    · exact Place.modeChanged_joining e0 e1 (by rw [hrecord]; rfl) (by rw [hrecord]; rfl) (by rw [hrecord]; rfl) (by rw [hrecord]; rfl)
        (by rw [hrecord]; rfl)
  subst hq_eq
  have hn := Device.rebuild_number_lt hr
  refine ⟨hrecord, hfaults, fun port kind => ?_⟩
  rw [hmarked port kind, lampMaskOf_getLsbD hn hr, lampMaskOf_getLsbD hn hq, h.relists.agg]

theorem values {n : Nat} {q : Place} (hq : e.places[n]? = some q) :
    (e.station q.id.station).valuesOf q.id.seat = (w.station q.id.station).valuesOf q.id.seat := by
  rw [h.relists.station]
  exact Device.rebuild_values h.changed (h.mem_newList hq)

theorem hands_back {p : Place} (hp : p ∈ d.places) (hgone : ∀ q ∈ e.places, q.id ≠ p.id)
    (hl : (e.station p.id.station).listed = true) (hserial : (e.station p.id.station).serial = some p.id.serial) :
    ∀ values ∈ (e.station p.id.station).values[p.id.seat], values.zeros = p.refZeros := by
  obtain ⟨k, hk⟩ := List.getElem?_of_mem hp
  rw [h.relists.station] at hl hserial ⊢
  rw [w.rebuild_station_eq] at hl hserial
  refine Device.rebuild_hands_back h.nodup_before h.changed (List.mem_of_getElem? (h.kept k p hk hl)) (fun hmem => ?_) hl hserial
  rw [← h.relists.ids] at hmem
  obtain ⟨q, hq, hid⟩ := List.mem_map.1 hmem
  exact hgone q hq hid

end Device.ListChange

end

/-- Settles O60: a command that changes the list rebuilds it from a device that has left alone every place whose station stays listed
(`Device.ListChange`), and the rebuild moves those records, makes the new ones and hands the reference zeros back. -/
theorem aListChangeMovesRecordsAndAddsFreshOnes : Obligations.AListChangeMovesRecordsAndAddsFreshOnes := by
  intro c s t hmap hlist h hc hchanged
  rcases exec_list h hc with hkept | ⟨w, e, hw, ht⟩
  · exact absurd hkept.ids hchanged
  rw [ht] at hchanged ⊢
  have hchange : s.dev.ListChange w e := hw.listChange hmap hlist hchanged
  refine ⟨fun n k p q hp hq hid => hchange.stays hp hq hid, fun n q hq hnew => ?_, fun p hp hgone hl hserial => ?_⟩
  · obtain ⟨hrecord, hfaults, hmarked⟩ := hchange.joins hq hnew
    rw [← hchange.values hq, ← hw.stamp] at hrecord
    refine ⟨hrecord, fun k => ?_, hmarked⟩
    have hstation : e.station q.id.station = { w.station q.id.station with values := (e.station q.id.station).values } := by
      rw [hw.station]; exact w.rebuild_station_eq _
    have hstate : (e.station q.id.station).state = (w.station q.id.station).state := by rw [hstation]
    have htest : (e.station q.id.station).test = (w.station q.id.station).test := by rw [hstation]
    have hrestarted : (e.station q.id.station).restarted = (w.station q.id.station).restarted := by rw [hstation]
    rw [hfaults, Device.newPlace_hasFault_iff, ← hchange.values hq, ← hstate, ← htest, ← hrestarted]
    rfl
  · exact hchange.hands_back hp hgone hl hserial

end Sys2Proof.Machine
end

section
/-! PROOF. O36 and O41: SET_POLICY and ACCEPT_MAP. -/

namespace Sys2Proof.Machine

/-! ## SET_POLICY by its table (R54, R55) -/

theorem policyReserved_iff (v : Word) : policyReserved v = true ↔ v.getLsbD 3 = true ∨ v.extractLsb' 7 9 ≠ 0 := by
  have hmask : ∀ i < 16, (0xFF88#16).getLsbD i = decide (i = 3 ∨ 7 ≤ i) := by decide
  have hbits : v &&& 0xFF88 = 0 ↔ v.getLsbD 3 = false ∧ v.extractLsb' 7 9 = 0 := by
    constructor
    · intro h
      have hclear : ∀ i < 16, (i = 3 ∨ 7 ≤ i) → v.getLsbD i = false := fun i hi hr => by
        have hbit := congrArg (fun x => x.getLsbD i) h
        simpa [hmask i hi, hr] using hbit
      refine ⟨hclear 3 (by omega) (.inl rfl), BitVec.eq_of_getLsbD_eq fun i hi => ?_⟩
      simp [BitVec.getLsbD_extractLsb', hclear (7 + i) (by omega) (.inr (by omega))]
    · rintro ⟨h3, hhigh⟩
      refine BitVec.eq_of_getLsbD_eq fun i hi => ?_
      rw [BitVec.getLsbD_and, show (0xFF88 : Word).getLsbD i = _ from hmask i hi]
      by_cases h7 : 7 ≤ i
      · have hbit := congrArg (fun x => x.getLsbD (i - 7)) hhigh
        have hi' : i - 7 < 9 := by omega
        have hsum : 7 + (i - 7) = i := by omega
        simp only [BitVec.getLsbD_extractLsb', hi', decide_true, Bool.true_and, hsum] at hbit
        simp [hbit]
      · by_cases hi3 : i = 3
        · rw [hi3, h3]; rfl
        · simp [h7, hi3]
  rw [policyReserved, bne_iff_ne, ne_eq, hbits, not_and_or, Bool.not_eq_false]

section
variable {p : Port} {f : Frame} {d : Device} {u : PortUnit}

theorem setPolicyAnswer_atMoment (m : Moment) : setPolicyAnswer (d.atMoment m) p f = setPolicyAnswer d p f := by cases m <;> rfl

/-- The table's rows in order, in the words of the rule. -/
theorem setPolicyAnswer_eq : setPolicyAnswer d p f =
    if policyReserved f.value = true then .range else if policyForeign p f.value = true then .notPermitted
    else if d.places[f.selector.toNat]? = none then .range else .ok := by
  unfold setPolicyAnswer policyForeign
  cases p <;> simp only [policyReserved_iff, List.getElem?_eq_none_iff]

theorem setPolicyRule_refused (h : setPolicyAnswer d p f ≠ .ok) : setPolicyRule p f d u = Reply.only (setPolicyAnswer d p f) 0 d u := by
  rw [setPolicyAnswer_eq] at h ⊢
  unfold setPolicyRule
  by_cases hreserved : policyReserved f.value = true
  · rw [if_pos hreserved, if_pos hreserved]
  · by_cases hforeign : policyForeign p f.value = true
    · rw [if_neg hreserved, if_neg hreserved, if_pos hforeign, if_pos hforeign]
    · cases hplace : d.places[f.selector.toNat]? with
      | none => simp [hreserved, hforeign]
      | some q => simp [hreserved, hforeign, hplace] at h

/-- An accepted SET_POLICY names a listed place and writes its policy. -/
theorem setPolicyRule_ok (h : setPolicyAnswer d p f = .ok) : ∃ q, d.places[f.selector.toNat]? = some q ∧
    setPolicyRule p f d u = {
      status := .ok, data := (q.policy.written f.value).word, unit := u
      dev := d.modifyPlace f.selector.toNat (Place.writePolicy d.env f.value) } := by
  rw [setPolicyAnswer_eq] at h
  unfold setPolicyRule
  by_cases hreserved : policyReserved f.value = true
  · rw [if_pos hreserved] at h; cases h
  · by_cases hforeign : policyForeign p f.value = true
    · rw [if_neg hreserved, if_pos hforeign] at h; cases h
    · cases hplace : d.places[f.selector.toNat]? with
      | none => simp [hreserved, hforeign, hplace] at h
      | some q => exact ⟨q, rfl, by simp [hreserved, hforeign]⟩

end

/-! ## A place whose policy is written (R54, R56, R108) -/

section
variable (p : Place) (e : Env) (v : Word)

/-- The place with its policy written and, where restraint_fitted changed, its verdict re-evaluated. -/
def Place.judgedPolicy : Place :=
  if (p.policy.written v).restraintFitted = p.policy.restraintFitted then { p with policy := p.policy.written v }
  else ({ p with policy := p.policy.written v } : Place).evalVerdict e

theorem Place.writePolicy_judged : p.writePolicy e v =
    if (p.policy.written v).reminderEnable = p.policy.reminderEnable ∧ (p.policy.written v).childReminder = p.policy.childReminder
    then p.judgedPolicy e v else (p.judgedPolicy e v).remind e p e := rfl

theorem Place.judgedPolicy_eq : p.judgedPolicy e v = { p with
    policy := p.policy.written v, verdict := (p.judgedPolicy e v).verdict, marks := (p.judgedPolicy e v).marks } := by
  unfold Place.judgedPolicy
  split
  · rfl
  · rw [Place.evalVerdict_eq]

theorem Place.marked_judgedPolicy_reminder (port : Port) : (p.judgedPolicy e v).marked port .reminder = p.marked port .reminder := by
  unfold Place.judgedPolicy
  split
  · rfl
  · rw [Place.marked_evalVerdict_reminder]; rfl

theorem Place.writePolicy_eq : p.writePolicy e v = { p with
    policy := p.policy.written v, verdict := (p.writePolicy e v).verdict, stage := (p.writePolicy e v).stage
    timer := (p.writePolicy e v).timer, marks := (p.writePolicy e v).marks } := by
  rw [Place.writePolicy_judged]
  split
  · rw [Place.judgedPolicy_eq]
  · rw [Place.remind_eq, Place.judgedPolicy_eq]

theorem Place.writePolicy_verdict : (p.writePolicy e v).verdict = (p.judgedPolicy e v).verdict := by
  rw [Place.writePolicy_judged]
  split
  · rfl
  · rw [Place.remind_verdict]

theorem Place.writePolicy_policy : (p.writePolicy e v).policy = p.policy.written v := by rw [Place.writePolicy_eq]

/-- In FROZEN the verdict stays (R113). -/
theorem Place.judgedPolicy_frozen (hm : e.mode = .frozen) : (p.judgedPolicy e v).verdict = p.verdict := by
  unfold Place.judgedPolicy
  split
  · rfl
  · rw [Place.evalVerdict_verdict, if_pos hm]

/-- A place that is no longer fitted is NOT_FITTED outside FROZEN (R108). -/
theorem Place.judgedPolicy_unfitted (hm : e.mode ≠ .frozen) (hbefore : p.policy.restraintFitted = true)
    (hafter : (p.policy.written v).restraintFitted = false) : (p.judgedPolicy e v).verdict = .notFitted := by
  rw [Place.judgedPolicy, if_neg (by rw [hbefore, hafter]; decide), Place.evalVerdict_verdict, if_neg hm, Env.verdictOf, if_pos hafter]

end

/-- The moment of an event is not looked at by an evaluation's mark. -/
theorem Device.evaluated_atMoment {d e : Device} {m : Moment} {p q : Place} (h : (d.atMoment m).evaluated e p q) : d.evaluated e p q := by
  cases m <;> exact h

/-- Where SET_POLICY changes a reminder field the place's stage is evaluated, and nothing else of the reminder changes (R56, R151). -/
theorem Place.writePolicy_evaluated (d e : Device) (p : Place) (v : Word) (henv : e.env = d.env)
    (hchange : (p.policy.written v).reminderEnable ≠ p.policy.reminderEnable ∨
      (p.policy.written v).childReminder ≠ p.policy.childReminder) : d.evaluated e p (p.writePolicy d.env v) := by
  have hevaluated := Place.remind_evaluated d e p (p.judgedPolicy d.env v) (by rw [Place.judgedPolicy_eq]) (by rw [Place.judgedPolicy_eq])
    (p.marked_judgedPolicy_reminder d.env v)
  rw [henv] at hevaluated
  rw [Place.writePolicy_judged, if_neg (not_and_or.2 hchange)]
  exact hevaluated

/-- Settles O36: `setPolicyRule_refused` and `setPolicyRule_ok` say what the request does, `Place.writePolicy_judged` what it makes of
the place. -/
theorem setPolicyWritesTheFieldsNamed : Obligations.SetPolicyWritesTheFieldsNamed := by
  intro p f s hopen
  have hmoment : setPolicyAnswer (s.dev.atMoment f.moment) p f = setPolicyAnswer s.dev p f := setPolicyAnswer_atMoment _
  by_cases hok : setPolicyAnswer s.dev p f = .ok
  · obtain ⟨q, hq, hrule⟩ := setPolicyRule_ok (u := s.ports.get p) (hmoment.trans hok)
    obtain ⟨t, hexec, hdev, hanswered, hkept⟩ :=
      State.takeRequest_open s p f Request.setPolicy.code (setPolicyRule p f) hopen (by rw [hrule])
    rw [hrule] at hdev hanswered hkept
    refine ⟨t, hexec, hkept, fun h => absurd hok h, fun q' _ hq' => ?_⟩
    rw [Device.atMoment_places] at hq
    obtain rfl : q = q' := Option.some.inj (hq.symm.trans hq')
    generalize hd : s.dev.atMoment f.moment = d at hdev
    have hmode : d.env.mode = s.dev.mode := by rw [← hd]; exact s.dev.atMoment_mode _
    have henv : t.dev.env = d.env := by rw [hdev]; rfl
    have hpolicy := q.writePolicy_policy d.env f.value
    refine ⟨q.writePolicy d.env f.value, ?_, by rw [hpolicy]; exact hanswered, ?_, by rw [hpolicy]; rfl, by rw [hpolicy]; rfl,
      by rw [hpolicy]; rfl, fun hm => ?_, fun hm hfitted hunfitted => ?_, fun hchange => ?_, fun henable hchild => ?_⟩
    · rw [hdev, Device.finish_places, Device.modifyPlace_places, ← hd, Device.atMoment_places]
      exact modify_eq_set _ _ q _ hq
    · rw [hpolicy]; exact q.writePolicy_eq _ _
    · rw [Place.writePolicy_verdict]; exact q.judgedPolicy_frozen _ _ (hmode.trans hm)
    · rw [hpolicy] at hunfitted
      rw [Place.writePolicy_verdict]
      exact q.judgedPolicy_unfitted _ _ (by rw [hmode]; exact hm) hfitted hunfitted
    · rw [hpolicy] at hchange
      subst hd
      exact Device.evaluated_atMoment (Place.writePolicy_evaluated _ _ q f.value henv hchange)
    · rw [hpolicy] at henable hchild
      rw [Place.writePolicy_judged, if_pos ⟨henable, hchild⟩]
      refine ⟨?_, ?_, q.marked_judgedPolicy_reminder _ _⟩
      all_goals rw [Place.judgedPolicy_eq]
  · have hrule := setPolicyRule_refused (u := s.ports.get p) (d := s.dev.atMoment f.moment) (by rw [hmoment]; exact hok)
    obtain ⟨t, hexec, hdev, hanswered, hkept⟩ :=
      State.takeRequest_open s p f Request.setPolicy.code (setPolicyRule p f) hopen (by rw [hrule]; rfl)
    rw [hrule] at hdev hanswered hkept
    rw [hmoment] at hanswered
    exact ⟨t, hexec, hkept, fun _ => ⟨hanswered, by rw [State.blocksKept, hdev]; exact s.dev.kept_finish f.moment⟩,
      fun _ h => absurd h hok⟩

/-! ## ACCEPT_MAP by its table (R50) -/

theorem acceptMapRule_eq (p : Port) (f : Frame) (d : Device) (u : PortUnit) : acceptMapRule p f d u = {
    status := acceptMapAnswer d p f, data := d.generationWord, unit := u
    dev := if acceptMapAnswer d p f = .ok then d.acceptMap else d } := by
  have hmode : d.mode ≠ .run ↔ d.mode = .startUp ∨ d.mode = .frozen := by cases d.mode <;> decide
  have hgeneration : f.value ≠ d.generationWord ↔ f.value.toNat ≠ d.generation.toNat := by
    rw [ne_eq, ← BitVec.toNat_inj, Device.generationWord, BitVec.toNat_setWidth, Nat.mod_eq_of_lt (by omega)]
  unfold acceptMapRule acceptMapAnswer
  simp only [hmode, hgeneration]
  by_cases hport : p = .b
  · simp [hport, Reply.only]
  · by_cases hm : d.mode = .startUp ∨ d.mode = .frozen
    · simp [hport, hm, Reply.only]
    · by_cases hrange : 255 < f.value.toNat
      · simp [hport, hm, hrange, Reply.only]
      · by_cases hstale : f.value.toNat ≠ d.generation.toNat
        · simp [hport, hm, hrange, hstale, Reply.only]
        · simp only [hport, hm, hrange, hstale, if_false, if_true]

theorem acceptMapAnswer_atMoment (d : Device) (m : Moment) (p : Port) (f : Frame) :
    acceptMapAnswer (d.atMoment m) p f = acceptMapAnswer d p f := by cases m <;> rfl

/-- An accepted ACCEPT_MAP names the current generation. -/
theorem acceptMapAnswer_ok {d : Device} {p : Port} {f : Frame} (h : acceptMapAnswer d p f = .ok) :
    f.value.toNat = d.generation.toNat := by
  unfold acceptMapAnswer at h
  by_contra hne
  rw [if_pos hne] at h
  split at h
  · cases h
  · split at h
    · cases h
    · split at h <;> cases h

theorem Device.acceptMap_ids (d : Device) : d.acceptMap.places.map Place.id = d.places.map Place.id :=
  map_ids_of (Place.acceptedMap_id _ · _) _

/-- With the map accepted no place is left to confirm (R53). -/
theorem Device.acceptMap_mapPending (d : Device) : d.acceptMap.mapPending = false := by
  have haccepted : d.acceptMap.accepted = d.acceptMap.places.map Place.id := d.acceptMap_ids.symm
  unfold Device.mapPending
  rw [haccepted]
  simp only [Bool.or_eq_false_iff, List.any_eq_false, Bool.not_eq_true', Bool.not_eq_false, List.contains_iff_mem]
  exact ⟨fun q hq => List.mem_map_of_mem hq, fun _ hid => hid⟩

theorem Device.acceptMap_marked (d : Device) : ∀ q ∈ d.acceptMap.places, ∀ port : Port, q.marked port .map = true := by
  intro q hq port
  obtain ⟨p, -, rfl⟩ := List.mem_map.1 hq
  rw [Place.acceptedMap, Place.marked_mark, decide_eq_true rfl, Bool.or_true]

/-- Settles O41: `acceptMapRule_eq` gives the answer by the table, the lemmas about `Device.acceptMap` what an accepted one does. -/
theorem acceptMapConfirmsTheCurrentList : Obligations.AcceptMapConfirmsTheCurrentList := by
  intro p f s hopen
  have hrule := acceptMapRule_eq p f (s.dev.atMoment f.moment) (s.ports.get p)
  rw [acceptMapAnswer_atMoment, Device.atMoment_generationWord] at hrule
  obtain ⟨t, hexec, hdev, hanswered, hkept⟩ :=
    State.takeRequest_open s p f Request.acceptMap.code (acceptMapRule p f) hopen (by rw [hrule])
  rw [hrule] at hdev hanswered hkept
  refine ⟨t, hexec, hkept, hanswered, fun hrefused => ?_, fun hok => ?_⟩
  · rw [State.blocksKept, hdev, if_neg hrefused]
    exact s.dev.kept_finish f.moment
  · rw [if_pos hok] at hdev
    rw [hdev, Device.mapPending_finish, Device.finish_places]
    refine ⟨?_, ?_, Device.acceptMap_mapPending _, ?_, ?_, ?_, ?_, ?_, Device.acceptMap_marked _⟩
    · exact congrArg (List.map Place.id) (s.dev.atMoment_places f.moment)
    · rw [acceptMapAnswer_ok hok]
      exact congrArg BitVec.toNat (s.dev.atMoment_generation f.moment)
    · exact s.dev.atMoment_generation f.moment
    · rw [Device.acceptMap_ids, Device.atMoment_places]
    · exact s.dev.atMoment_mode f.moment
    · exact s.dev.atMoment_st f.moment
    · exact s.dev.atMoment_vehicle f.moment

end Sys2Proof.Machine
end

section
/-! PROOF. The arbiter's order (O5). -/

namespace Sys2Proof.Machine

/-! ## The least of a list of stations -/

section
variable {key : Code → Nat} {l : List Code} {c : Code}

theorem leastBy_eq_none (h : leastBy key l = none) : l = [] := by
  cases l with
  | nil => rfl
  | cons a l =>
    unfold leastBy at h
    split at h
    · cases h
    · split at h <;> cases h

/-- In a list in ascending order the least station is the first of those with the least key. -/
theorem leastBy_least (h : leastBy key l = some c) (hl : l.Pairwise (· < ·)) :
    ∀ k ∈ l, key c < key k ∨ (key c = key k ∧ c ≤ k) := by
  induction l generalizing c with
  | nil => cases h
  | cons a l ih =>
    obtain ⟨hfirst, hrest⟩ := List.pairwise_cons.1 hl
    unfold leastBy at h
    split at h
    · rename_i hnone
      cases h
      rw [leastBy_eq_none hnone]
      intro k hk
      obtain rfl := List.mem_singleton.1 hk
      exact .inr ⟨rfl, le_refl k⟩
    · rename_i b hb
      have hleast := ih hb hrest
      have hab : a < b := hfirst b (mem_of_leastBy hb)
      split at h
      · rename_i hle
        cases h
        intro k hk
        rcases List.mem_cons.1 hk with rfl | hk
        · exact .inr ⟨rfl, le_refl _⟩
        · have hak : a ≤ k := le_of_lt (hfirst k hk)
          rcases hleast k hk with hlt | ⟨heq, -⟩
          · exact .inl (by omega)
          · rcases Nat.lt_or_eq_of_le (heq ▸ hle) with hlt | he
            · exact .inl hlt
            · exact .inr ⟨he, hak⟩
      · rename_i hgt
        cases h
        intro k hk
        rcases List.mem_cons.1 hk with rfl | hk
        · exact .inl (not_le.1 hgt)
        · exact hleast k hk

end

/-- The stations that meet a test, in the order of their codes. -/
theorem stations_ascending (p : Code → Bool) : ((List.finRange 12).filter p).Pairwise (· < ·) :=
  List.Pairwise.filter _ (by decide)

theorem mem_stations {p : Code → Bool} {k : Code} : k ∈ (List.finRange 12).filter p ↔ p k = true := by
  simp [List.mem_filter]

theorem no_stations {p : Code → Bool} (h : (List.finRange 12).filter p = []) (k : Code) : p k = false :=
  Bool.eq_false_iff.2 fun hk => by
    have hmem := mem_stations.2 hk
    rw [h] at hmem
    cases hmem

/-! ## The choice by class (R69) -/

/-- Settles O5: a class that holds nothing leaves the choice to the next one, and in its own class the request found is the first. -/
theorem theArbiterTakesTheFirstRequestOfTheFirstClass : Obligations.TheArbiterTakesTheFirstRequestOfTheFirstClass := by
  intro d
  unfold Device.choose
  cases hstep : leastBy d.scanOrder ((List.finRange 12).filter (fun c => (d.scanCommand c).isSome)) with
  | some c =>
    obtain ⟨cmd, hcmd⟩ := Option.isSome_iff_exists.1 (mem_stations.1 (mem_of_leastBy hstep))
    have hleast := leastBy_least hstep (stations_ascending _)
    simp only [hcmd, Option.map_some]
    refine ⟨trivial, fun k hk => ?_⟩
    rcases hleast k (mem_stations.2 hk) with h | ⟨h, -⟩ <;> omega
  | none =>
    have hsteps : ∀ k, d.scanCommand k = none := fun k => by
      simpa using no_stations (leastBy_eq_none hstep) k
    cases hwait : d.ss.waiting.find? d.requestEligible with
    | some r =>
      obtain ⟨heligible, before, after, hsplit, hbefore⟩ := List.find?_eq_some_iff_append.1 hwait
      exact ⟨hsteps, heligible, before, after, hsplit, fun q hq => by simpa using hbefore q hq⟩
    | none =>
      have hwaits : ∀ q ∈ d.ss.waiting, d.requestEligible q = false := fun q hq => by
        simpa using List.find?_eq_none.1 hwait q hq
      cases hscan : leastBy d.dueKey ((List.finRange 12).filter d.scanEligible) with
      | some c =>
        exact ⟨hsteps, hwaits, mem_stations.1 (mem_of_leastBy hscan), fun k hk =>
          leastBy_least hscan (stations_ascending _) k (mem_stations.2 hk)⟩
      | none => exact ⟨hsteps, hwaits, no_stations (leastBy_eq_none hscan)⟩

/-- The arbiter begins a scan only where an EXCITE to begin one is eligible. -/
theorem Device.choose_scan_eligible {d : Device} {c : Code} (h : d.choose = some (.scan c)) : d.scanEligible c = true := by
  have horder := theArbiterTakesTheFirstRequestOfTheFirstClass d
  rw [h] at horder
  obtain ⟨-, -, heligible, -⟩ := horder
  exact heligible

end Sys2Proof.Machine
end

section
/-! SUPPORT. The excitation budget through every event (R59, R69): no work of ST, SS, CU or the places asks for an EXCITE; every event leaves
the history, or puts an EXCITE attempt on the line and enters its send stamp. -/

namespace Sys2Proof.Machine

/-! ## No EXCITE is asked for (R69) -/

section
variable {d : Device}

/-- What waits after the event waited before it. -/
theorem Device.waitingLaw_of_subset {e : Device} (h : d.waitingLaw) (hw : ∀ r ∈ e.ss.waiting, r ∈ d.ss.waiting) : e.waitingLaw :=
  fun r hr => h r (hw r hr)

theorem Device.waitingLaw_ask (h : d.waitingLaw) (c : Code) {cmd : LinkCommand} (b : Block) (hcmd : cmd ≠ .excite := by nofun) :
    (d.ask c cmd b).waitingLaw := fun r hr => by
  rcases List.mem_append.1 hr with hr | hr
  · exact h r hr
  · rw [List.mem_singleton.1 hr]; exact hcmd

variable (h : d.waitingLaw) (c : Code)
include h

theorem Device.waitingLaw_toAbsent : (d.toAbsent c).waitingLaw :=
  Device.waitingLaw_of_subset h fun _ hr => List.mem_of_mem_filter hr

theorem Device.waitingLaw_pruneStores : d.pruneStores.waitingLaw :=
  Device.waitingLaw_of_subset h fun _ hr => Device.mem_pruneStores_waiting hr

theorem Device.waitingLaw_continueLoading : (d.continueLoading c).waitingLaw := by
  unfold Device.continueLoading
  split
  · exact Device.waitingLaw_ask h c .st
  · exact Device.waitingLaw_ask (by exact h) c .st

theorem Device.waitingLaw_askLoading (pattern : Bool) : (d.askLoading c pattern).waitingLaw := by
  unfold Device.askLoading
  split
  · exact Device.waitingLaw_ask h c .st
  · exact Device.waitingLaw_continueLoading h c

theorem Device.waitingLaw_reload (retained : Bool) (n : Nat) : (d.reload c retained n).waitingLaw :=
  Device.waitingLaw_ask (by exact h) c .st

theorem Device.waitingLaw_abortNode : (d.abortNode c).waitingLaw := Device.waitingLaw_pruneStores (by exact h)

theorem Device.waitingLaw_nodeRestart : (d.nodeRestart c).waitingLaw :=
  Device.waitingLaw_reload (Device.waitingLaw_abortNode (by exact h) c) c true 0

theorem Device.waitingLaw_takeUpTest : (d.takeUpTest c).waitingLaw := by
  unfold Device.takeUpTest
  split
  · exact Device.waitingLaw_ask (by exact h) c .st
  · exact h

theorem Device.waitingLaw_scanFailed : (d.scanFailed c).waitingLaw := by
  unfold Device.scanFailed
  simp only
  split
  · exact Device.waitingLaw_abortNode (by exact h) c
  · exact Device.waitingLaw_takeUpTest (by exact h) c

theorem Device.waitingLaw_askStores (ps qs : List Place) : (d.askStores ps qs).waitingLaw := by
  induction ps generalizing d qs with
  | nil => exact h
  | cons p ps ih =>
    cases qs with
    | nil => exact h
    | cons q qs =>
      unfold Device.askStores
      split
      · split
        · split
          · exact ih h qs
          · exact ih (Device.waitingLaw_ask h _ .cu) qs
        · exact ih h qs
      · exact ih h qs

theorem Device.waitingLaw_scanSucceeded (payload : List Byte) : (d.scanSucceeded c payload).waitingLaw := by
  have hcounted : (((d.passTaken c payload).endScan c).setStation c { d.station c with failures := 0 }).waitingLaw := h
  exact Device.waitingLaw_takeUpTest (Device.waitingLaw_askStores hcounted _ _) c

theorem Device.waitingLaw_scanOutcome (cmd : LinkCommand) (o : LinkOutcome) : (d.scanOutcome c cmd o).waitingLaw := by
  have hstep : ∀ step, (d.setScanStep c step).waitingLaw := fun _ => h
  have hfails := Device.waitingLaw_scanFailed h c
  unfold Device.scanOutcome
  split
  · split
    · exact Device.waitingLaw_nodeRestart h c
    · split
      · split
        · exact hstep _
        · split
          · exact hstep _
          · exact hfails
      · split
        · exact Device.waitingLaw_scanSucceeded h c _
        · exact hstep _
      · exact hfails
  · split
    · exact hstep _
    · exact hfails

theorem Device.waitingLaw_takeSeat (payload : List Byte) (pattern : Bool) : (d.takeSeat c payload pattern).waitingLaw := by
  have hmoved : (d.dropMoved c (identitySerial payload)).waitingLaw := Device.waitingLaw_of_subset h fun r hr => by
    rw [Device.dropMoved_waiting] at hr
    exact List.mem_of_mem_filter hr
  unfold Device.takeSeat
  simp only
  split
  · exact hmoved
  · exact Device.waitingLaw_askLoading (by exact hmoved) c pattern

theorem Device.waitingLaw_toFaulted : (d.toFaulted c).waitingLaw := h

theorem Device.waitingLaw_probeOutcome (o : LinkOutcome) : (d.probeOutcome c o).waitingLaw := by
  unfold Device.probeOutcome
  split
  · exact Device.waitingLaw_toAbsent h c
  · split
    · simp only
      split
      · exact Device.waitingLaw_takeSeat (by exact h) c _ _
      · exact Device.waitingLaw_toFaulted (by exact h) c
    · exact Device.waitingLaw_toFaulted (by exact h) c

theorem Device.waitingLaw_reprobeOutcome (o : LinkOutcome) : (d.reprobeOutcome c o).waitingLaw := by
  unfold Device.reprobeOutcome
  split
  · exact h
  · split
    · simp only
      split
      · exact Device.waitingLaw_toFaulted (by exact h) c
      · split
        · split
          · exact Device.waitingLaw_askLoading (by exact h) c _
          · split
            · exact Device.waitingLaw_askLoading (by exact h) c _
            · exact h
        · exact Device.waitingLaw_takeSeat (by exact h) c _ _
    · exact h

theorem Device.waitingLaw_confirmOutcome (o : LinkOutcome) : (d.confirmOutcome c o).waitingLaw := by
  unfold Device.confirmOutcome
  split
  · exact Device.waitingLaw_toAbsent h c
  · split
    · simp only
      split
      · exact Device.waitingLaw_toFaulted (by exact h) c
      · split
        · exact Device.waitingLaw_askLoading h c _
        · exact Device.waitingLaw_takeSeat (by exact h) c _ _
    · exact Device.waitingLaw_toAbsent h c

theorem Device.waitingLaw_loadingOutcome (cmd : LinkCommand) (o : LinkOutcome) : (d.loadingOutcome c cmd o).waitingLaw := by
  unfold Device.loadingOutcome
  split
  · exact Device.waitingLaw_confirmOutcome h c o
  · split
    · exact Device.waitingLaw_toAbsent h c
    · split
      · exact Device.waitingLaw_reload h c _ _
      · split
        · split
          · exact Device.waitingLaw_continueLoading (by exact h) c
          · exact Device.waitingLaw_continueLoading h c
        · exact Device.waitingLaw_toAbsent h c

theorem Device.waitingLaw_testNext (step : TestStep) {cmd : LinkCommand} (hcmd : cmd ≠ .excite := by nofun) :
    (d.testNext c step cmd).waitingLaw := Device.waitingLaw_ask (by exact h) c .st hcmd

theorem Device.waitingLaw_testingOutcome (o : LinkOutcome) : (d.testingOutcome c o).waitingLaw := by
  have habsent := Device.waitingLaw_toAbsent h c
  have hactive : (d.toActive c).waitingLaw := h
  unfold Device.testingOutcome
  split
  · exact h
  · split
    · exact habsent
    · split
      · exact Device.waitingLaw_reload h c _ _
      · split
        · split
          · exact Device.waitingLaw_testNext h c _
          · split
            · exact Device.waitingLaw_testNext h c _
            · exact habsent
        · exact Device.waitingLaw_testNext h c _
        · split
          · exact Device.waitingLaw_testNext h c _
          · exact Device.waitingLaw_testNext (by exact h) c _
        · split
          · exact hactive
          · exact habsent
        · exact h

theorem Device.waitingLaw_stationOutcome (cmd : LinkCommand) (o : LinkOutcome) : (d.stationOutcome c cmd o).waitingLaw := by
  unfold Device.stationOutcome
  split
  · exact Device.waitingLaw_probeOutcome h c o
  · exact Device.waitingLaw_probeOutcome h c o
  · exact Device.waitingLaw_reprobeOutcome h c o
  · exact Device.waitingLaw_loadingOutcome h c cmd o
  · exact Device.waitingLaw_testingOutcome h c o
  · exact h
  · exact h

theorem Device.waitingLaw_askProbe : (d.askProbe c).waitingLaw := by
  unfold Device.askProbe
  simp only
  split
  · exact Device.waitingLaw_ask (by exact h) c .st
  · exact Device.waitingLaw_ask h c .st

theorem Device.waitingLaw_startupNext : (d.startupNext c).waitingLaw := by
  unfold Device.startupNext
  split
  · simp only
    split
    · exact Device.waitingLaw_askProbe (by exact h) _
    · exact h
  · exact h

theorem Device.waitingLaw_storeOutcome (seat : Seat) (o : LinkOutcome) : (d.storeOutcome c seat o).waitingLaw := by
  have htaken : ∀ acked, (d.storeTaken c seat acked).waitingLaw := fun _ => h
  by_cases hstoring : d.storingAt c seat
  · cases o with
    | failed k => rw [Device.storeOutcome_failed hstoring]; exact htaken false
    | answered a n =>
      rw [Device.storeOutcome_answered hstoring]
      split
      · exact Device.waitingLaw_nodeRestart (htaken _) c
      · exact htaken _
  · unfold Device.storeOutcome
    rw [if_neg (mt Device.storingAt_iff.1 hstoring)]
    exact h

end

section
variable {d : Device} (h : d.waitingLaw)
include h

theorem Device.waitingLaw_deliver (x : Exchange) (o : LinkOutcome) : (d.deliver x o).waitingLaw := by
  unfold Device.deliver
  split
  · split
    · exact Device.waitingLaw_scanOutcome h _ _ o
    · exact h
  · exact Device.waitingLaw_stationOutcome (Device.waitingLaw_startupNext h _) _ _ o
  · split
    · exact Device.waitingLaw_storeOutcome h _ _ o
    · exact h

theorem Device.waitingLaw_handed (x : Exchange) (o : LinkOutcome) : (d.handed x o).waitingLaw := by
  have hd := Device.waitingLaw_deliver h x o
  unfold Device.handed
  split
  · unfold Device.lateExpiry
    split
    · exact Device.waitingLaw_toAbsent hd _
    · exact hd
  · exact hd

theorem Device.waitingLaw_endExchange (x : Exchange) (o : LinkOutcome) : (d.endExchange x o).waitingLaw := by
  have hheard : (d.heard x o).waitingLaw := by rw [Device.heard_eq]; exact h
  have hhanded := Device.waitingLaw_handed hheard x o
  rw [Device.endExchange_eq]
  refine Device.waitingLaw_of_subset hhanded fun r hr => ?_
  rw [Device.settled_waiting] at hr
  exact Device.mem_rebuild_waiting hr

end

/-! ## What an event makes of the history (R59) -/

/-- From `d` to `e` the history stays, time does not go back, no EXCITE is asked for, and no EXCITE attempt comes on the line. -/
structure Device.LeavesBudget (d e : Device) : Prop where
  history : e.ss.history = d.ss.history
  stamp   : d.stamp ≤ e.stamp
  waiting : d.waitingLaw → e.waitingLaw
  line    : ∀ y, e.lc.exchange = some y → y.phase = some .sending → y.cmd = .excite → d.lc.exchange = some y ∨ ¬ d.waitingLaw

/-- From `d` to `e` an EXCITE attempt that the budget allows comes on the line, and its send stamp is entered. -/
structure Device.EntersExcite (d e : Device) : Prop where
  history : e.ss.history = pushStamp d.ss.history e.stamp
  stamp   : d.stamp ≤ e.stamp
  waiting : d.waitingLaw → e.waitingLaw
  allowed : d.budgetAllows = true
  line    : ∃ y, e.lc.exchange = some y ∧ y.phase = some .sending ∧ y.cmd = .excite

/-- What an event makes of the budget. -/
abbrev Device.BudgetEvent (d e : Device) : Prop := d.LeavesBudget e ∨ d.EntersExcite e

section
variable {d e f : Device}

theorem Device.LeavesBudget.trans (h : d.LeavesBudget e) (h' : e.LeavesBudget f) : d.LeavesBudget f where
  history := h'.history.trans h.history
  stamp := h.stamp.trans h'.stamp
  waiting hw := h'.waiting (h.waiting hw)
  line y hy hp hc := by
    rcases h'.line y hy hp hc with he | hw
    · exact h.line y he hp hc
    · exact .inr (mt h.waiting hw)

/-- The blocks other than SS and LC may have changed. -/
theorem Device.leavesBudget_rest (h1 : e.ss.history = d.ss.history) (h2 : e.ss.waiting = d.ss.waiting) (h3 : e.time = d.time)
    (h4 : e.lc.exchange = d.lc.exchange) : d.LeavesBudget e where
  history := h1
  stamp := by rw [Device.stamp, Device.stamp, h3]
  waiting hw := by rwa [Device.waitingLaw, h2]
  line y hy _ _ := .inl (h4 ▸ hy)

/-- The work of ST, SS, CU and the places leaves the budget where it asks for no EXCITE. -/
theorem Device.leavesBudget_of_still (h : e.still = d.still) (hw : d.waitingLaw → e.waitingLaw) : d.LeavesBudget e where
  history := Device.history_of_still h
  stamp := le_of_eq (congrArg Env.stamp (Device.env_of_still h).symm)
  waiting := hw
  line y hy _ _ := .inl (by rw [← hy]; exact (congrArg (·.lc.exchange) h.symm : d.still.lc.exchange = e.still.lc.exchange))

theorem Device.leavesBudget_atMoment (d : Device) (m : Moment) : d.LeavesBudget (d.atMoment m) where
  history := by rw [Device.atMoment_ss]
  stamp := d.stamp_le_atMoment m
  waiting hw := by rwa [Device.waitingLaw, Device.atMoment_ss]
  line y hy _ _ := .inl (by rwa [Device.atMoment_lc] at hy)

theorem Device.BudgetEvent.of_atMoment {m : Moment} (h : (d.atMoment m).BudgetEvent e) : d.BudgetEvent e := by
  rcases h with h | ⟨hhistory, hstamp, hwaiting, hallowed, hline⟩
  · exact .inl ((d.leavesBudget_atMoment m).trans h)
  · have hm := d.leavesBudget_atMoment m
    exact .inr ⟨by rw [hhistory, hm.history], hm.stamp.trans hstamp, fun hw => hwaiting (hm.waiting hw),
      by rwa [Device.atMoment_budgetAllows] at hallowed, hline⟩

/-! ## The events of the link -/

theorem Device.leavesBudget_endExchange (x : Exchange) (o : LinkOutcome) : d.LeavesBudget (d.endExchange x o) where
  history := by rw [Device.endExchange_eq]; simp
  stamp := by
    have htime : (d.endExchange x o).time = d.time := by
      rw [Device.endExchange_eq, Device.settled_of_rebuild _ Device.time fun e => e.completeStartup_time, Device.rebuild_time]
      exact (congrArg Device.time ((d.heard x o).handed_still x o) :).trans (d.heard_time x o)
    rw [Device.stamp, Device.stamp, htime]
  waiting hw := Device.waitingLaw_endExchange hw x o
  line y hy _ _ := by rw [Device.endExchange_lc, Device.closeExchange_lc] at hy; cases hy

theorem Device.budgetEvent_launchRetry {x : Exchange} (h : d.budgetAllows = true) : d.BudgetEvent (d.launchRetry x) := by
  rw [Device.launchRetry_eq]
  by_cases hx : x.cmd = .excite
  · exact .inr ⟨if_pos hx, le_refl _, id, h, _, rfl, rfl, hx⟩
  · exact .inl ⟨if_neg hx, le_refl _, id, fun y hy _ hc => by cases hy; exact absurd hc hx⟩

theorem Device.budgetEvent_retry (x : Exchange) (k : FailKind) : d.BudgetEvent (d.retry x k) := by
  unfold Device.retry
  simp only
  split
  · exact .inl ⟨rfl, le_refl _, id, fun y hy hp _ => by cases hy; cases hp⟩
  · rename_i hnotheld
    by_cases hx : x.cmd = .excite
    · exact Device.budgetEvent_launchRetry (by simpa [hx] using hnotheld)
    · rw [Device.launchRetry_eq]
      exact .inl ⟨if_neg hx, le_refl _, id, fun y hy _ hc => by cases hy; exact absurd hc hx⟩

theorem Device.budgetEvent_attemptFailed (x : Exchange) (k : FailKind) : d.BudgetEvent (d.attemptFailed x k) := by
  unfold Device.attemptFailed
  split
  · exact Device.budgetEvent_retry x k
  · exact .inl (Device.leavesBudget_endExchange x _)

theorem Device.budgetEvent_takeChar (x : Exchange) (ch : RxChar) : d.BudgetEvent (d.takeChar x ch) := by
  unfold Device.takeChar
  simp only
  split
  · exact .inl ⟨rfl, le_refl _, id, fun y hy hp _ => by cases hy; cases hp⟩
  · exact .inl ⟨rfl, le_refl _, id, fun y hy hp _ => by cases hy; cases hp⟩
  · exact Device.budgetEvent_attemptFailed _ _
  · exact .inl (Device.leavesBudget_endExchange x _)

/-- SS hands LC a class 2 command that is no EXCITE (R69). -/
theorem Device.scanCommand_ne_excite {c : Code} {cmd : LinkCommand} (h : d.scanCommand c = some cmd) : cmd ≠ .excite := by
  unfold Device.scanCommand at h
  repeat' split at h
  all_goals cases h
  all_goals decide

theorem Device.budgetEvent_grant {choice : Choice} (h : d.choose = some choice) : d.BudgetEvent (d.grant choice) := by
  have horder := theArbiterTakesTheFirstRequestOfTheFirstClass d
  rw [h] at horder
  cases choice with
  | step c cmd =>
    exact .inl ⟨rfl, le_refl _, id, fun y hy _ hc => by cases hy; exact absurd hc (Device.scanCommand_ne_excite horder.1)⟩
  | waiting r =>
    obtain ⟨-, -, before, after, hsplit, -⟩ := horder
    have hr : r ∈ d.ss.waiting := by rw [hsplit]; simp
    exact .inl ⟨rfl, le_refl _, fun hw => Device.waitingLaw_of_subset hw fun q hq => List.mem_of_mem_eraseP hq,
      fun y hy _ hc => .inr fun hw => by cases hy; exact hw r hr hc⟩
  | scan c =>
    have hallowed : d.budgetAllows = true := by
      have heligible := Device.choose_scan_eligible h
      simp only [Device.scanEligible, Bool.and_eq_true] at heligible
      exact heligible.1.2
    exact .inr ⟨rfl, le_refl _, id, hallowed, _, rfl, rfl, rfl⟩

/-! ## The other events of the blocks -/

theorem Device.leavesBudget_probeMark (t : Nat) : d.LeavesBudget (d.probeMark t) := by
  unfold Device.probeMark
  simp only
  repeat' split
  · exact Device.leavesBudget_rest rfl rfl rfl rfl
  · rename_i c _
    have hmarked : d.LeavesBudget { d with st := { d.st with nextProbe := some (t + 500), lastProbe := some c } } :=
      Device.leavesBudget_rest rfl rfl rfl rfl
    exact hmarked.trans (Device.leavesBudget_of_still (Device.goes_askProbe (held_work _) c).still
      fun hw => Device.waitingLaw_askProbe hw c)
  · exact Device.leavesBudget_rest rfl rfl rfl rfl

theorem Device.leavesBudget_reProbeMark (c : Code) (t : Nat) : d.LeavesBudget (d.reProbeMark c t) := by
  have hmarked : d.LeavesBudget (d.setStation c { d.station c with nextReprobe := some (t + 100) }) :=
    Device.leavesBudget_rest rfl rfl rfl rfl
  unfold Device.reProbeMark
  simp only
  split
  · exact hmarked
  · exact hmarked.trans (Device.leavesBudget_of_still (Device.goes_ask (held_work _) c _ _).still
      fun hw => Device.waitingLaw_ask hw c .st nofun)

theorem Device.leavesBudget_silentExpiry (c : Code) : d.LeavesBudget (d.toAbsent c).rebuild where
  history := by rw [Device.rebuild_history]; rfl
  stamp := by rw [Device.stamp, Device.stamp, Device.rebuild_time]; exact le_refl _
  waiting hw := Device.waitingLaw_of_subset (Device.waitingLaw_toAbsent hw c) fun _ hr => Device.mem_rebuild_waiting hr
  line y hy _ _ := .inl (by rw [← hy, Device.rebuild_lc]; rfl)

theorem Device.leavesBudget_tick (ps : List Place) : d.LeavesBudget { d with time := { now := d.time.now + 1, past := false }, places := ps } where
  history := rfl
  stamp := by
    show d.stamp ≤ d.time.now + 1
    unfold Device.stamp
    split <;> omega
  waiting := id
  line y hy _ _ := .inl hy

theorem Device.leavesBudget_freeze : d.LeavesBudget d.freeze where
  history := rfl
  stamp := le_refl _
  waiting hw := Device.waitingLaw_of_subset hw fun _ hr => List.mem_of_mem_filter hr
  line _ hy _ _ := .inl hy

/-- Every event leaves the budget, or puts an EXCITE attempt on the line. -/
theorem Device.Event.budget {c : Instr} (h : d.Event c e) : d.BudgetEvent e := by
  have hrest : ∀ {e : Device}, e.ss.history = d.ss.history → e.ss.waiting = d.ss.waiting → e.time = d.time →
      e.lc.exchange = d.lc.exchange → d.BudgetEvent e := fun h1 h2 h3 h4 => .inl (Device.leavesBudget_rest h1 h2 h3 h4)
  have hm : ∀ {m : Moment} {e : Device}, e.ss.history = (d.atMoment m).ss.history → e.ss.waiting = (d.atMoment m).ss.waiting →
      e.time = (d.atMoment m).time → e.lc.exchange = (d.atMoment m).lc.exchange → d.BudgetEvent e :=
    fun h1 h2 h3 h4 => .of_atMoment (.inl (Device.leavesBudget_rest h1 h2 h3 h4))
  cases h with
  | grant m choice _ hchoice => exact .of_atMoment (Device.budgetEvent_grant hchoice)
  | frameSent m x =>
    exact .of_atMoment (.inl ⟨rfl, le_refl _, id, fun y hy hp _ => by cases hy; cases hp⟩)
  | char m ch x => exact .of_atMoment (Device.budgetEvent_takeChar x ch)
  | attemptFailed c m x k => exact .of_atMoment (Device.budgetEvent_attemptFailed x k)
  | heldRetry m x _ _ hallowed => exact .of_atMoment (Device.budgetEvent_launchRetry (by rwa [Device.atMoment_budgetAllows]))
  | selfRelax c t =>
    have hrelaxed : d.LeavesBudget (d.setExcitation c (.recovering (t + 22))) := Device.leavesBudget_rest rfl rfl rfl rfl
    split
    · exact .inl (hrelaxed.trans (Device.leavesBudget_of_still (Device.goes_scanFailed (held_work _) c).still
        fun hw => Device.waitingLaw_scanFailed hw c))
    · exact .inl hrelaxed
  | tick => exact .inl (Device.leavesBudget_tick _)
  | probeMark t => exact .inl (Device.leavesBudget_probeMark t)
  | reProbeMark c t => exact .inl (Device.leavesBudget_reProbeMark c t)
  | silentExpiry c t => exact .inl (Device.leavesBudget_silentExpiry c)
  | startupLimit => exact hrest (by simp) (by simp) (by simp) (by simp)
  | lapse t => exact hrest (by simp [Device.lapse]) (by simp [Device.lapse]) (by simp [Device.lapse]) (by simp [Device.lapse])
  | vehicleState f => exact hm (m := f.moment) (by simp [Device.supply]) (by simp [Device.supply]) (by simp [Device.supply]) (by simp [Device.supply])
  | setParam p f row =>
    exact .of_atMoment (.inl (by
      unfold Device.writeParam
      simp only
      split <;> exact Device.leavesBudget_rest rfl rfl rfl rfl))
  | linkTest p f c =>
    have hpending : (d.atMoment f.moment).LeavesBudget
        ((d.atMoment f.moment).setStation c { d.station c with testPending := true }) := Device.leavesBudget_rest rfl rfl rfl rfl
    exact .of_atMoment (.inl (hpending.trans (Device.leavesBudget_of_still (Device.goes_takeUpTest (held_work _) c).still
      fun hw => Device.waitingLaw_takeUpTest hw c)))
  | freeze f => exact .of_atMoment (.inl Device.leavesBudget_freeze)
  | quiet | settle | unknownExpiry | recoveryEnd | freshnessLoss | nodeSilent | lampTimer | chimeTimer | trimMark =>
    exact hrest rfl rfl rfl rfl
  | noEffect c m => exact hm rfl rfl rfl rfl
  | placeStatus p f | tableRead p f | globalFaultsRead p f | placeFaultsRead p f | globalFaultsClear p f | placeFaultsClear p f
  | setPolicy p f | setAttn p f | calZero p f | acceptMap f | unfreeze f => exact hm rfl rfl rfl rfl

end

/-- What a command other than RESET makes of the budget. -/
theorem exec_budget {c : Instr} {s t : State} (h : exec c s = .next t) (hc : c ≠ .reset) : s.dev.BudgetEvent t.dev := by
  rcases exec_event h hc with he | ⟨e, he, ht⟩
  · exact .inl (by rw [he]; exact Device.leavesBudget_rest rfl rfl rfl rfl)
  · rw [ht]
    rcases he.budget with hkept | hentered
    · exact .inl (hkept.trans (Device.leavesBudget_rest rfl rfl rfl rfl))
    · exact .inr ⟨hentered.history, hentered.stamp, hentered.waiting, hentered.allowed, hentered.line⟩

end Sys2Proof.Machine
end

section
/-! PROOF. The excitation budget (O19). -/

namespace Sys2Proof.Machine

/-- The budget allows an EXCITE exactly when a fourth stamp before it is 20 ms old (R59). -/
theorem Device.budgetAllows_iff (d : Device) :
    d.budgetAllows = true ↔ ∀ oldest ∈ d.ss.history.head?, 4 ≤ d.ss.history.length → oldest + 20 ≤ d.time.now := by
  unfold Device.budgetAllows
  cases d.ss.history with
  | nil => simp
  | cons oldest rest =>
    simp [Device.passed]
    omega

theorem Device.now_le_stamp (d : Device) : d.time.now ≤ d.stamp := by
  unfold Device.stamp
  split <;> omega

/-- The laws of the history and of the waiting requests together. -/
abbrev Device.budgetLaw (d : Device) : Prop := d.historyLaw ∧ d.waitingLaw

theorem Device.BudgetEvent.law {d e : Device} (h : d.BudgetEvent e) (hd : d.budgetLaw) : e.budgetLaw := by
  obtain ⟨⟨hlength, hsorted, hpast⟩, hwaiting⟩ := hd
  rcases h with hkept | hentered
  · have hstamp : ∀ t ∈ d.ss.history, t ≤ e.stamp := fun t ht => (hpast t ht).trans hkept.stamp
    rw [← hkept.history] at hlength hsorted hstamp
    exact ⟨⟨hlength, hsorted, hstamp⟩, hkept.waiting hwaiting⟩
  · have hstamp : ∀ t ∈ d.ss.history, t ≤ e.stamp := fun t ht => (hpast t ht).trans hentered.stamp
    refine ⟨?_, hentered.waiting hwaiting⟩
    rw [Device.historyLaw, hentered.history]
    refine ⟨pushStamp_length _ _ hlength, pushStamp_sorted hsorted hstamp, fun t ht => ?_⟩
    rcases mem_pushStamp ht with ht | rfl
    · exact hstamp t ht
    · exact le_refl _

/-- Settles O19: an event leaves the history or enters the stamp of an allowed EXCITE attempt (`Device.Event.budget`), and either keeps the
law. -/
theorem theExcitationBudgetIsKept : Obligations.TheExcitationBudgetIsKept := by
  have hreset : Device.reset.budgetLaw := by decide
  refine ⟨fun s t hhistory hwaiting h => ?law, fun c s t y hwaiting h hidle hy hp hcmd => ?entered, fun c s t h hc hchanged => ?changed⟩
  case law =>
    exact Device.law_kept_by_step (P := Device.budgetLaw) hreset (fun _ hd => hd) (fun _ _ _ hd he => he.budget.law hd)
      ⟨hhistory, hwaiting⟩ h
  case entered =>
    by_cases hc : c = .reset
    · subst hc; cases h; cases hy
    · rcases exec_budget h hc with hkept | hentered
      · rcases hkept.line y hy hp hcmd with hbefore | hlaw
        · exact absurd hp (hidle y hbefore)
        · exact absurd hwaiting hlaw
      · exact hentered.history
  case changed =>
    rcases exec_budget h hc with hkept | hentered
    · exact absurd hkept.history hchanged
    · refine ⟨hentered.history, hentered.line, fun oldest holdest hlength => ?_⟩
      calc oldest + 20 ≤ s.dev.time.now := s.dev.budgetAllows_iff.1 hentered.allowed oldest holdest hlength
        _ ≤ s.dev.stamp := s.dev.now_le_stamp
        _ ≤ t.dev.stamp := hentered.stamp

end Sys2Proof.Machine
end

section
/-! PROOF. What is published stands for the state after every step (O50). -/

namespace Sys2Proof.Machine

/-- A law of the recomputed values that holds at reset and right after the end of any event is kept by every step: a command takes an event,
which ends in `Device.finish`, or changes no block. -/
theorem Device.law_kept_of_finish {P : Device → Prop} (hreset : P Device.reset) (hfinish : ∀ d : Device, P d.finish) {s t : State}
    (hs : P s.dev) (h : step s = .next t) : P t.dev := by
  unfold step at h
  split at h
  · cases h; exact hs
  · rename_i c rest _
    by_cases hc : c = .reset
    · subst hc; cases h; exact hreset
    · rcases exec_event h hc with he | ⟨e, -, ht⟩
      · rw [he]; exact hs
      · rw [ht]; exact hfinish e

/-- The chime demand is on exactly when a place is in CHIME (R153). -/
theorem Device.aggregates_chime (d : Device) : d.aggregates.chime = true ↔ ∃ p ∈ d.places, p.stage = .chime := by
  simp [Device.aggregates]

/-- Settles O50: the end of every event makes what is published anew (`Device.published_finish`). -/
theorem everyStepKeepsWhatIsPublished : Obligations.EveryStepKeepsWhatIsPublished := by
  intro s t hs h
  have hreset : Device.reset.publishedLaw := by decide
  have hlaw : t.dev.publishedLaw := Device.law_kept_of_finish hreset Device.published_finish hs h
  obtain ⟨hagg, hperiod, ha, hb⟩ := hlaw
  exact ⟨⟨hagg, hperiod, ha, hb⟩, by rw [hagg]; exact t.dev.aggregates_chime⟩

end Sys2Proof.Machine
end

section
/-! PROOF. The scheduler's reached instants (O18). -/

namespace Sys2Proof.Machine

variable {c : Code} {s : State}

/-! ## The end of the settling time (R64) -/

/-- SETTLE_PASSED for a scan in step SETTLING with its EXCITE time known. -/
theorem exec_settlePassed {sc : Scan} {time : Nat} (hscan : (s.dev.record c).scan = some sc) (hstep : sc.step = .settling)
    (hexcited : (s.dev.record c).excitation = .excited (.known time)) :
    exec (.settlePassed c) s =
      if time + 3 ≤ s.dev.time.now then
        .next { s with dev := (s.dev.setRecord c { s.dev.record c with scan := some { sc with step := .sampling } }).finish }
      else .next s := by
  have hexec : exec (.settlePassed c) s = execSettlePassed c s := rfl
  have hsampling : s.dev.setScanStep c .sampling =
      s.dev.setRecord c { s.dev.record c with scan := some { sc with step := .sampling } } := by
    rw [Device.setScanStep, hscan, Option.map_some]
  rw [hexec, execSettlePassed, hscan, hexcited, State.event, hsampling]
  simp [Excitation.knownTime, hstep, Device.passed]

/-! ## The excitation state (R58) -/

/-- An excitation state other than RELAXED leaves the instant at which the state last became RELAXED. -/
theorem Device.setExcitation_unrelaxed (d : Device) (c : Code) {e : Excitation} (h : e ≠ .relaxed) :
    d.setExcitation c e = d.setRecord c { d.record c with excitation := e } := by
  simp [Device.setExcitation, h]

/-- A state that becomes RELAXED takes the stamp of the event. -/
theorem Device.setExcitation_becomes_relaxed (d : Device) (c : Code) (h : (d.record c).excitation ≠ .relaxed) :
    d.setExcitation c .relaxed = d.setRecord c { d.record c with excitation := .relaxed, relaxedAt := d.stamp } := by
  simp [Device.setExcitation, h]

theorem exec_excitedUnknownExpiry {since : Nat} (hunknown : (s.dev.record c).excitation = .excited (.unknown since))
    (hreached : since + 20 ≤ s.dev.time.now) :
    exec (.excitedUnknownExpiry c) s =
      .next { s with dev := (s.dev.setRecord c { s.dev.record c with excitation := .recovering (since + 22) }).finish } := by
  have hexec : exec (.excitedUnknownExpiry c) s = execExcitedUnknownExpiry c s := rfl
  rw [hexec, execExcitedUnknownExpiry, hunknown]
  refine (if_pos (decide_eq_true hreached)).trans ?_
  rw [State.event, Device.setExcitation_unrelaxed _ _ (e := .recovering _) nofun]

theorem exec_recoveryEnd {ends : Nat} (hrecovering : (s.dev.record c).excitation = .recovering ends) :
    exec (.recoveryEnd c) s =
      if ends ≤ s.dev.time.now then
        .next { s with dev := (s.dev.setRecord c { s.dev.record c with excitation := .relaxed, relaxedAt := s.dev.stamp }).finish }
      else .next s := by
  have hexec : exec (.recoveryEnd c) s = execRecoveryEnd c s := rfl
  rw [hexec, execRecoveryEnd, hrecovering]
  simp only
  rw [State.event, Device.setExcitation_becomes_relaxed _ _ (by rw [hrecovering]; nofun)]

/-! ## Due and allowed (R59, R62) -/

theorem Device.isDue_of_reached {d : Device} {due : Nat} (hactive : (d.station c).state = .active) (hdue : (d.record c).due = some due)
    (hreached : due ≤ d.time.now) : d.isDue c = true := by
  simp [Device.isDue, hactive, hdue, hreached]

theorem Device.budgetAllows_of_aged {d : Device} {oldest : Nat} {rest : List Nat} (hhistory : d.ss.history = oldest :: rest)
    (haged : oldest + 20 ≤ d.time.now) : d.budgetAllows = true := by
  rw [Device.budgetAllows_iff, hhistory]
  rintro t ⟨⟩ -
  exact haged

/-- Settles O18: each instant by the lemma of its command, on either side of the instant. -/
theorem reachedInstantsChangeWhatTheSchedulerMayDo : Obligations.ReachedInstantsChangeWhatTheSchedulerMayDo := by
  refine ⟨fun c s sc time hscan hstep hexcited => ?settle, fun c s => ⟨fun since hunknown => ?unknown, fun ends hrecovering => ?recovery⟩,
    fun c s => ⟨rfl, rfl, fun due => Device.isDue_of_reached, fun oldest rest => Device.budgetAllows_of_aged⟩⟩
  case settle =>
    have hexec := exec_settlePassed hscan hstep hexcited
    exact ⟨fun hreached => hexec.trans (if_pos hreached), fun hbefore => hexec.trans (if_neg (not_le.2 hbefore))⟩
  case unknown => exact exec_excitedUnknownExpiry hunknown
  case recovery =>
    have hexec := exec_recoveryEnd hrecovering
    exact ⟨fun hreached => hexec.trans (if_pos hreached), fun hbefore => hexec.trans (if_neg (not_le.2 hbefore))⟩

end Sys2Proof.Machine
end

section
/-! SUPPORT. An event at one place, and what RU makes of a place that it evaluates there (R147 to R154). -/

namespace Sys2Proof.Machine

/-- A change of the place that holds a number puts the changed place there. -/
theorem Device.modifyPlace_eq {d : Device} {n : Nat} {p : Place} (f : Place → Place) (hp : d.places[n]? = some p) :
    d.modifyPlace n f = { d with places := d.places.set n (f p) } := by
  rw [Device.modifyPlace, modify_eq_set _ _ _ f hp]

section
variable {e : Env} {p : Place}

/-- An evaluation that finds stage and timer as they are changes nothing. -/
theorem Place.remind_of_same (h : e.nextStage p = (p.stage, p.timer)) : p.remind e p e = p := by
  have hstage : p.toStage e = p := by rw [Place.toStage, h]
  rw [Place.remind, hstage]
  exact if_neg (by simp)

/-- An evaluation that moves the stage sets REMINDER. -/
theorem Place.remind_of_moved {st : Stage} {n : Nat} (h : e.nextStage p = (st, n)) (hmoved : st ≠ p.stage) :
    p.remind e p e = ({ p with stage := st, timer := n }).mark .reminder := by
  have hstage : p.toStage e = { p with stage := st, timer := n } := by rw [Place.toStage, h]
  rw [Place.remind, hstage]
  exact if_pos (.inl hmoved)

/-! ## Timers that have been reached (R149, R150) -/

variable {v : Nat} (heligible : e.eligible p = true) (hopen : p.beltFastened = false) (hknown : p.reported ≠ .unknown)
  (hspeed : e.vehicle.speed = some v)
include heligible hopen hknown hspeed

theorem Env.nextStage_lampReached (hstage : p.stage = .lamp) (htimer : e.params.tLamp * 1000 ≤ p.timer) :
    e.nextStage p = if e.params.vChime ≤ v then (.chime, 0) else (.lamp, p.timer) := by
  simp [Env.nextStage, Env.held, Env.speedAtLeast, heligible, hopen, hknown, hspeed, hstage, htimer]

theorem Env.nextStage_chimeReached (hstage : p.stage = .chime) (htimer : e.params.tChime * 1000 ≤ p.timer) :
    e.nextStage p = (.lapsed, 0) := by
  simp [Env.nextStage, Env.held, heligible, hopen, hknown, hspeed, hstage, htimer]

end

end Sys2Proof.Machine
end

section
/-! PROOF. Ages, stage timers and trim marks (O25). -/

namespace Sys2Proof.Machine

/-! ## The time-base instant (R72, R146, R149, R150) -/

/-- What a time-base instant makes of a place: its age counts up to 65535, its stage timer in LAMP and CHIME while the place is not held. -/
theorem Place.tick_eq (d : Device) (p : Place) : p.tick d.env = { p with
    age := if p.age < 65535 then p.age + 1 else 65535
    timer := if p.reported ≠ Class.unknown ∧ d.vehicle.speed ≠ none ∧
        ((p.stage = Stage.lamp ∧ p.timer < d.params.tLamp * 1000) ∨
         (p.stage = Stage.chime ∧ p.timer < d.params.tChime * 1000)) then p.timer + 1 else p.timer } := by
  have hage : min 65535 (p.age + 1) = if p.age < 65535 then p.age + 1 else 65535 := by split <;> omega
  have hheld : d.env.held { p with age := min 65535 (p.age + 1) } = false ↔ p.reported ≠ .unknown ∧ d.vehicle.speed ≠ none := by
    simp [Env.held, Device.env, Option.isSome_iff_ne_none]
  unfold Place.tick Place.tickTimer
  simp only [hheld, ← hage]
  cases hstage : p.stage with
  | lamp =>
    simp only [and_assoc, reduceCtorEq, true_and, false_and, or_false]
    by_cases hrunning : p.reported ≠ .unknown ∧ d.vehicle.speed ≠ none ∧ p.timer < d.params.tLamp * 1000
    · rw [if_pos hrunning]; exact if_pos hrunning
    · rw [if_neg hrunning]; exact if_neg hrunning
  | chime =>
    simp only [and_assoc, reduceCtorEq, true_and, false_and, false_or]
    by_cases hrunning : p.reported ≠ .unknown ∧ d.vehicle.speed ≠ none ∧ p.timer < d.params.tChime * 1000
    · rw [if_pos hrunning]; exact if_pos hrunning
    · rw [if_neg hrunning]; exact if_neg hrunning
  | off | watch | lapsed => simp

/-! ## The rows -/

section
variable {n : Nat} {s : State} {p : Place} (hp : s.dev.places[n]? = some p)
include hp

/-- LAMP_TIMER_REACHED and CHIME_TIMER_REACHED evaluate the place whose timer has reached its limit. -/
theorem exec_timerReached (q : Place) (hq : p.remind s.dev.env p s.dev.env = q) :
    (p.stage = .lamp → s.dev.params.tLamp * 1000 ≤ p.timer →
      exec (.lampTimerReached n) s = .next { s with dev := ({ s.dev with places := s.dev.places.set n q }).finish }) ∧
    (p.stage = .chime → s.dev.params.tChime * 1000 ≤ p.timer →
      exec (.chimeTimerReached n) s = .next { s with dev := ({ s.dev with places := s.dev.places.set n q }).finish }) := by
  have hlamp : exec (.lampTimerReached n) s = execLampTimerReached n s := rfl
  have hchime : exec (.chimeTimerReached n) s = execChimeTimerReached n s := rfl
  rw [hlamp, hchime, execLampTimerReached, execChimeTimerReached, hp, State.event, Device.modifyPlace_eq _ hp, hq]
  exact ⟨fun hstage htimer => if_pos ⟨hstage, htimer⟩, fun hstage htimer => if_pos ⟨hstage, htimer⟩⟩

theorem exec_trimMark {mark : Nat} (hmark : p.nextTrim = some mark) :
    exec (.trimMark n) s =
      if mark ≤ s.dev.time.now then .next { s with dev := ({ s.dev with
        places := s.dev.places.set n { p with trimDue := true, nextTrim := some (mark + 10000) } }).finish }
      else .next s := by
  have hexec : exec (.trimMark n) s = execTrimMark n s := rfl
  rw [hexec, execTrimMark, hp]
  simp only [hmark]
  rw [State.event, Device.modifyPlace_eq _ hp]

end

/-- Settles O25: the instant by `Place.tick_eq`, the timers by the stage that each evaluation gives, the trim mark by its row. -/
theorem agesAndTimersCountAndActWhenReached : Obligations.AgesAndTimersCountAndActWhenReached := by
  refine ⟨fun s => ?tick, fun n s p v hp heligible hopen hknown hspeed => ⟨fun hstage htimer => ?lamp, fun hstage htimer => ?chime⟩,
    fun n s p mark hp hmark => ?trim⟩
  case tick =>
    have hexec : exec .ageTick s = .next { s with dev := ({ s.dev with
        time := { now := s.dev.time.now + 1, past := false }, places := s.dev.places.map (Place.tick s.dev.env) }).finish } := rfl
    rw [hexec, funext (Place.tick_eq s.dev)]
  case lamp =>
    have hnext := Env.nextStage_lampReached heligible hopen hknown hspeed hstage htimer
    by_cases hv : s.dev.params.vChime ≤ v
    · have hq := Place.remind_of_moved (hnext.trans (if_pos hv)) (by rw [hstage]; decide)
      refine ⟨_, _, (exec_timerReached hp _ hq).1 hstage htimer, rfl, rfl, rfl, fun _ => ⟨rfl, rfl, fun port => ?_⟩,
        fun h => absurd hv (not_le.2 h)⟩
      rw [Place.marked_mark, decide_eq_true rfl, Bool.or_true]
    · have hq := Place.remind_of_same (hnext.trans ((if_neg hv).trans (by rw [hstage])))
      exact ⟨_, _, (exec_timerReached hp _ hq).1 hstage htimer, rfl, rfl, rfl, fun h => absurd h hv, fun _ => rfl⟩
  case chime =>
    have hnext := Env.nextStage_chimeReached heligible hopen hknown hspeed hstage htimer
    have hq := Place.remind_of_moved hnext (by rw [hstage]; decide)
    refine ⟨_, _, (exec_timerReached hp _ hq).2 hstage htimer, rfl, rfl, rfl, rfl, rfl, fun port => ?_⟩
    rw [Place.marked_mark, decide_eq_true rfl, Bool.or_true]
  case trim =>
    have hexec := exec_trimMark hp hmark
    exact ⟨fun hreached => hexec.trans (if_pos hreached), fun hbefore => hexec.trans (if_neg (not_le.2 hbefore))⟩

end Sys2Proof.Machine
end

section
/-! SUPPORT. What a persistence step leaves (R105, R106), and what the evaluations of CL leave of the REMINDER marks (R154). -/

namespace Sys2Proof.Machine

section
variable (e : Env) (p : Place)

/-! ## Persistence -/

/-- A step with the class reported drops the pending one. -/
theorem Place.persist_same : p.persist e p.reported = { p with pendingClass := none, count := 0 } := if_pos rfl

variable {e p} {c : Class}

theorem Place.persist_reached (hc : c ≠ p.reported)
    (hn : e.params.threshold c ≤ if p.pendingClass = some c then p.count + 1 else 1) : p.persist e c = p.adopt e c :=
  (if_neg hc).trans (if_pos hn)

theorem Place.persist_below (hc : c ≠ p.reported)
    (hn : (if p.pendingClass = some c then p.count + 1 else 1) < e.params.threshold c) :
    p.persist e c = { p with pendingClass := some c, count := if p.pendingClass = some c then p.count + 1 else 1 } :=
  (if_neg hc).trans (if_neg (not_le.2 hn))

theorem Place.marked_adopt (port : Port) (k : ChangeKind) :
    (p.adopt e c).marked port k = (p.marked port k || decide (k = .cls)) := by
  rw [Place.adopt, Place.marked_mark]
  rfl

/-- UNKNOWN is reported at the first candidate. -/
theorem Place.persist_unknown (hc : p.reported ≠ .unknown) : p.persist e .unknown = p.adopt e .unknown := by
  refine Place.persist_reached hc.symm ?_
  change 1 ≤ _
  split <;> omega

/-! ## REMINDER marks -/

/-- A change of a place that leaves its REMINDER marks as they are. -/
abbrev Place.keepsReminder (p q : Place) : Prop := ∀ port : Port, q.marked port .reminder = p.marked port .reminder

theorem Place.keepsReminder.trans {q r : Place} (h : p.keepsReminder q) (h' : q.keepsReminder r) : p.keepsReminder r :=
  fun port => (h' port).trans (h port)

theorem Place.keepsReminder_mark {k : ChangeKind} (hk : k ≠ .reminder) : p.keepsReminder (p.mark k) := fun port => by
  rw [Place.marked_mark, decide_eq_false hk.symm, Bool.or_false]

theorem Place.keepsReminder_setFault (k : FaultKind) (on : Bool) : p.keepsReminder (p.setFault k on) := fun port => by
  rw [Place.marked_setFault, decide_eq_false (by decide), Bool.and_false, Bool.or_false]

theorem Place.keepsReminder_persist (e : Env) (c : Class) : p.keepsReminder (p.persist e c) := by
  unfold Place.persist
  generalize (if p.pendingClass = some c then p.count + 1 else 1) = n
  split
  · exact fun _ => rfl
  · dsimp only
    split
    · exact fun port => (Place.marked_adopt port _).trans (by rw [decide_eq_false (by decide), Bool.or_false])
    · exact fun _ => rfl

theorem Place.keepsReminder_rowOneEvaluation (e : Env) : p.keepsReminder (p.rowOneEvaluation e) := by
  unfold Place.rowOneEvaluation
  split
  · exact Place.keepsReminder_persist e _
  · exact fun _ => rfl

end

/-! ## Sticky faults (R174) -/

/-- A fault that rises enters the sticky set of both ports; no other fault does. -/
theorem Place.sticky_setFault (p : Place) (j k : FaultKind) (on : Bool) (port : Port) :
    ((p.setFault k on).sticky.get port).getLsbD j.bit =
      ((p.sticky.get port).getLsbD j.bit || (decide (j = k) && (on && !p.hasFault k))) := by
  have hbit : decide (j.bit = k.bit) = decide (j = k) :=
    decide_eq_decide.2 ⟨FaultKind.bit_inj, fun h => h ▸ rfl⟩
  unfold Place.setFault
  cases on with
  | false => simp
  | true =>
    cases hlive : p.hasFault k with
    | true => simp
    | false =>
      change ((p.sticky.map (withBit · k.bit)).get port).getLsbD j.bit = _
      simp [withBit_bit, hbit, FaultKind.bit_lt k]

end Sys2Proof.Machine
end

section
/-! PROOF. Stale and unsampled places (O20). -/

namespace Sys2Proof.Machine

/-! ## Freshness loss (R73, R100) -/

/-- The place with its freshness lost and NODE_SILENT as R73 has it, before the evaluations of R100. -/
def Place.stale (now : Nat) (p : Place) : Place :=
  ({ p with fresh := false }).setFault .nodeSilent (decide (p.joinStamp + 401 ≤ now))

section
variable (e : Env) (p : Place)

theorem Place.loseFreshness_eq :
    p.loseFreshness e = (((p.stale e.now).rowOneEvaluation e).evalVerdict e).remind e p e := rfl

theorem Place.stale_cannotJudge (now : Nat) : (p.stale now).cannotJudge = true := by
  simp [Place.cannotJudge, Place.stale]

theorem Place.stale_calRunning (now : Nat) : (p.stale now).calRunning = p.calRunning := by
  simp [Place.calRunning, Place.stale]

theorem Place.loseFreshness_nodeSilent (h : p.joinStamp + 401 ≤ e.now) : (p.loseFreshness e).hasFault .nodeSilent = true := by
  have hlive : (p.loseFreshness e).live = (p.stale e.now).live := by simp [Place.loseFreshness_eq]
  rw [Place.hasFault_of_live hlive, Place.stale, Place.hasFault_setFault, if_pos rfl]
  exact decide_eq_true h

/-- A stale place that CL evaluates is UNKNOWN with no pending class, and CLASS is set where it was not UNKNOWN before. -/
theorem Place.stale_rowOne {e : Env} {p : Place} (h : e.classifies p = true) :
    ((p.stale e.now).rowOneEvaluation e).reported = .unknown ∧
    ((p.stale e.now).rowOneEvaluation e).pendingClass = none ∧ ((p.stale e.now).rowOneEvaluation e).count = 0 ∧
    (p.reported ≠ .unknown → ∀ port : Port, ((p.stale e.now).rowOneEvaluation e).marked port .cls = true) := by
  have hevaluated : (p.stale e.now).rowOneEvaluation e = (p.stale e.now).persist e .unknown := by
    refine if_pos ?_
    rw [p.stale_cannotJudge, Bool.and_true, Env.classifies, p.stale_calRunning]
    exact h
  have hreported : (p.stale e.now).reported = p.reported := by simp [Place.stale]
  rw [hevaluated, ← hreported]
  by_cases hunknown : (p.stale e.now).reported = .unknown
  · rw [← hunknown, Place.persist_same]
    exact ⟨rfl, rfl, rfl, fun hne => absurd rfl hne⟩
  · rw [Place.persist_unknown hunknown]
    exact ⟨rfl, rfl, rfl, fun _ port => by rw [Place.marked_adopt, decide_eq_true rfl, Bool.or_true]⟩

/-- The verdict of a place that is not fresh is not ENABLE outside FROZEN (R108). -/
theorem Place.evalVerdict_notEnable {e : Env} {p : Place} (hfresh : p.fresh = false) (hmode : e.mode ≠ .frozen) :
    (p.evalVerdict e).verdict ≠ .enable := by
  rw [Place.evalVerdict_verdict, if_neg hmode, Env.verdictOf, hfresh]
  split
  · decide
  · simp

theorem Place.loseFreshness_inRun {e : Env} {p : Place} (hmode : e.mode = .run) (hcal : p.calRunning = false) :
    (p.loseFreshness e).reported = .unknown ∧ (p.loseFreshness e).pendingClass = none ∧ (p.loseFreshness e).count = 0 ∧
    (p.loseFreshness e).verdict ≠ .enable ∧
    (p.reported ≠ .unknown → ∀ port : Port, (p.loseFreshness e).marked port .cls = true) := by
  obtain ⟨hreported, hpending, hcount, hmarked⟩ := Place.stale_rowOne (e := e) (p := p) (by simp [Env.classifies, hmode, hcal])
  rw [Place.loseFreshness_eq]
  refine ⟨by simpa using hreported, by simpa using hpending, by simpa using hcount, ?_, fun hne port => ?_⟩
  · rw [Place.remind_verdict]
    exact Place.evalVerdict_notEnable (by simp [Place.stale]) (by rw [hmode]; decide)
  · exact Place.marksGrow_remind _ e p e port _ (Place.marksGrow_evalVerdict e _ port _ (hmarked hne port))

theorem Place.loseFreshness_inFrozen (hmode : e.mode = .frozen) :
    (p.loseFreshness e).reported = p.reported ∧ (p.loseFreshness e).verdict = p.verdict := by
  rw [Place.loseFreshness_eq, (Place.frozen_evaluations e _ hmode).2.1, (Place.frozen_evaluations e _ hmode).1]
  simp [Place.stale]

theorem Place.loseFreshness_evaluated (d d' : Device) (h : d'.env = d.env) : d.evaluated d' p (p.loseFreshness d.env) := by
  rw [Place.loseFreshness_eq]
  have hkeeps : p.keepsReminder (((p.stale d.env.now).rowOneEvaluation d.env).evalVerdict d.env) :=
    (Place.keepsReminder_setFault (p := { p with fresh := false }) _ _).trans
      ((Place.keepsReminder_rowOneEvaluation d.env).trans (Place.marked_evalVerdict_reminder d.env _))
  have hevaluated := Place.remind_evaluated d d' p _ (by simp [Place.stale]) (by simp [Place.stale]) hkeeps
  rwa [h] at hevaluated

end

/-! ## The rows -/

/-- Settles O20: freshness loss by the lemmas on `Place.loseFreshness`, NODE_SILENT_AFTER_JOIN by those on `Place.setFault`. -/
theorem staleAndUnsampledPlacesRaiseNodeSilent : Obligations.StaleAndUnsampledPlacesRaiseNodeSilent := by
  refine ⟨fun n s p hp hfresh hage => ?loss, fun n s p hp hstale hjoined => ?join⟩
  case loss =>
    have hexec : exec (.freshnessLoss n) s =
        .next { s with dev := ({ s.dev with places := s.dev.places.set n (p.loseFreshness s.dev.env) }).finish } := by
      change execFreshnessLoss n s = _
      rw [execFreshnessLoss, hp, State.event, Device.modifyPlace_eq _ hp]
      exact if_pos ⟨hfresh, hage⟩
    refine ⟨_, p.loseFreshness s.dev.env, hexec, rfl, rfl, rfl, rfl, ?_⟩
    refine ⟨Place.loseFreshness_id _ _, ?_, ?_, ?_, ?_, ?_, ?_, ?_, ?_, ?_, ?_, p.loseFreshness_nodeSilent s.dev.env,
      fun hmode hcal => Place.loseFreshness_inRun hmode hcal, p.loseFreshness_inFrozen s.dev.env,
      p.loseFreshness_evaluated s.dev _ rfl⟩ <;>
    simp [Place.loseFreshness]
  case join =>
    refine ⟨p.setFault .nodeSilent true, ?_, Place.setFault_eq p _ _, fun k => ?_, fun port k => ?_, fun port k => ?_⟩
    · change execNodeSilentAfterJoin n s = _
      rw [execNodeSilentAfterJoin, hp, State.event, Device.modifyPlace_eq _ hp]
      exact if_pos ⟨hstale, decide_eq_true hjoined⟩
    · rw [Place.hasFault_setFault]
      by_cases hk : k = .nodeSilent <;> simp [hk]
    · rw [Place.sticky_setFault, Bool.true_and]
    · rw [Place.marked_setFault, Bool.true_and, Bool.and_comm]

end Sys2Proof.Machine
end

section
/-! SUPPORT. A pass of one place, result by result (R75 to R93, R99 to R111, R144 to R154). -/

namespace Sys2Proof.Machine

section
variable (e : Env) (v : CalValues) (r : Readings) (p : Place)

/-! ## What LU writes (R75 to R93) -/

/-- A place at a pass as SS and LU leave it. -/
def Place.passLoaded : Place :=
  (({ p with age := 0, fresh := true }).setFault .nodeSilent false).loadPass e.params.filterShift v r

theorem Place.passSeen_eq :
    p.passSeen e v r = (((((p.passLoaded e v r).noteBelt p.buckle).passEvaluation e).evalVerdict e).noteFastened e).toStage e := rfl

/-- The cells that a pass misses. -/
def missingCells : Nat := (List.finRange 12).countP (cellMissing v r)

/-- A present cell reads SATURATED. -/
def cellsSaturated : Bool := (List.finRange 12).any (fun i => !cellMissing v r i && cellClass r.words[i] == .saturated)

theorem missingCells_eq : 12 - (presentCells v r).length = missingCells v r := by
  have hsum := List.length_eq_countP_add_countP (p := cellMissing v r) (l := List.finRange 12)
  rw [List.length_finRange] at hsum
  rw [presentCells, ← List.countP_eq_length_filter, missingCells]
  simp only [Bool.not_eq_true, Bool.decide_eq_false] at hsum
  omega

theorem cellsSaturated_eq : (presentCells v r).any (fun i => cellClass r.words[i] == .saturated) = cellsSaturated v r :=
  List.any_filter ..

/-- The contributions look at zeros and trims alone of the place. -/
theorem contributions_congr {p q : Place} (hzeros : q.refZeros = p.refZeros) (htrims : q.trims = p.trims) :
    contributions q v r = contributions p v r := by
  have hcell : cellContribution q v r = cellContribution p v r := by
    funext i
    simp only [cellContribution, Place.workingZero, hzeros, htrims]
  rw [contributions, hcell, contributions]


/-! ## The fields and the faults of LU -/

/-- The place as SS hands it to LU at a pass (R66). -/
def Place.passSampled : Place := ({ p with age := 0, fresh := true }).setFault .nodeSilent false

theorem Place.passLoaded_eq : p.passLoaded e v r = (p.passSampled.loadFields e.params.filterShift v r).loadFaults v r := rfl

theorem Place.loadFields_passSampled : p.passSampled.loadFields e.params.filterShift v r =
    let cells := contributions p v r
    let raw := rawTotal cells (missingCells v r)
    { p.passSampled with
      total := clampTotal raw
      atLeast := raw.any (fun total => cellsSaturated v r || decide (65534 < total))
      degraded := decide (missingCells v r = 1)
      conc := concentration cells (clampTotal raw)
      filter := filterAfter e.params.filterShift p.filter (clampTotal raw)
      buckle := buckleOf r.inputs
      leftAnchor := leftAnchorOf r.inputs
      rightAnchor := rightAnchorOf r.inputs
      partialCount := partialAfter p.partialCount (leftAnchorOf r.inputs) (rightAnchorOf r.inputs) } := by
  have hcells : contributions p.passSampled v r = contributions p v r :=
    contributions_congr v r (by simp [Place.passSampled]) (by simp [Place.passSampled])
  have hlength : (contributions p v r).length = (presentCells v r).length := List.length_map ..
  have hfilter : p.passSampled.filter = p.filter := by simp [Place.passSampled]
  have hpartial : p.passSampled.partialCount = p.partialCount := by simp [Place.passSampled]
  simp only [Place.loadFields, hcells, hlength, hfilter, hpartial, missingCells_eq, cellsSaturated_eq]
  rfl

/-- The faults of a place after LU's part of a pass (R89, R91 to R93). -/
theorem Place.hasFault_loaded (p : Place) (k : FaultKind) : (p.loadFaults v r).hasFault k =
    match k with
    | .cellOpen => decide (1 ≤ missingCells v r)
    | .cellsOpen => decide (2 ≤ missingCells v r)
    | .cellSat => cellsSaturated v r
    | .anchorFault => decide (p.leftAnchor = .fault ∨ p.rightAnchor = .fault)
    | .anchorPartial => anchorPartialAfter p.partialCount p.leftAnchor p.rightAnchor (p.hasFault .anchorPartial)
    | .buckleFault => decide (p.buckle = .fault)
    | k => p.hasFault k := by
  unfold Place.loadFaults
  simp only [Place.hasFault_setFault, missingCells_eq, cellsSaturated_eq]
  cases k <;> simp [Bool.beq_eq_decide_eq]


end

/-! ## What stays of LU's work -/

/-- `q` carries what LU and SS wrote in `l`: the load fields, the switch readings, the freshness, and every fault but DRIFT_LIMIT. -/
structure Place.SameLoad (q l : Place) : Prop where
  total        : q.total = l.total
  atLeast      : q.atLeast = l.atLeast
  degraded     : q.degraded = l.degraded
  conc         : q.conc = l.conc
  filter       : q.filter = l.filter
  buckle       : q.buckle = l.buckle
  leftAnchor   : q.leftAnchor = l.leftAnchor
  rightAnchor  : q.rightAnchor = l.rightAnchor
  partialCount : q.partialCount = l.partialCount
  age          : q.age = l.age
  fresh        : q.fresh = l.fresh
  hasFault     : ∀ k : FaultKind, k ≠ .driftLimit → q.hasFault k = l.hasFault k

section
variable {e : Env} {v : CalValues} {r : Readings} {p q l : Place}

/-- The rows of the decision table look at the load, the switch readings and the freshness. -/
theorem Place.SameLoad.decisionTable_eq (h : q.SameLoad l) (params : Params) (before : Class) :
    decisionTable params q before = decisionTable params l before := by
  unfold decisionTable
  rw [h.total, h.fresh, h.hasFault .anchorPartial (by decide), h.hasFault .anchorFault (by decide), h.leftAnchor, h.rightAnchor, h.conc,
    h.filter, h.buckle, h.atLeast]

theorem Place.hasFault_driftTrim {k : FaultKind} (hk : k ≠ .driftLimit) : (p.driftTrim e v r).hasFault k = p.hasFault k := by
  unfold Place.driftTrim
  split
  · unfold Place.trimStep
    dsimp only
    split
    · rw [Place.hasFault_setFault, if_neg hk]; rfl
    · rfl
  · rfl

/-- A pass leaves LU's work as LU left it. -/
theorem Place.pass_sameLoad (hq : q.agrees (p.pass e v r)) : q.SameLoad (p.passLoaded e v r) := by
  have hfault : ∀ k : FaultKind, k ≠ .driftLimit → q.hasFault k = (p.passLoaded e v r).hasFault k := fun k hk => by
    rw [hq.hasFault, Place.pass_eq, Place.hasFault_of_live (Place.markReminder_live ..), Place.hasFault_driftTrim hk]
    exact Place.hasFault_of_live (by simp [Place.passSeen_eq]) k
  constructor
  case hasFault => exact hfault
  all_goals
    rw [hq]
    simp [Place.pass_eq, Place.passSeen_eq]

/-! ## The class (R99, R103 to R107) -/

/-- The candidate of a pass is the one of the decision table. -/
theorem Place.candidate_eq (params : Params) (p : Place) : p.candidate params = decisionTable params p p.reported := by
  unfold Place.candidate decisionTable
  simp only [Place.cannotJudge, Place.beltedChild, Place.adultLoad, Place.occupiedLoad, Place.loadMeets, Bool.or_eq_true, Bool.and_eq_true,
    Option.isNone_iff_eq_none, Bool.not_eq_true', Option.any_eq_true, decide_eq_true_eq, beq_iff_eq, Option.mem_def, or_assoc, and_assoc]

theorem Place.passLoaded_reported : (p.passLoaded e v r).reported = p.reported := by
  simp [Place.passLoaded_eq, Place.loadFields, Place.passSampled]

end

end Sys2Proof.Machine
end

section
/-! SUPPORT. The class, the marks and the fastened flag after a pass (R99 to R107, R144, R154). -/

namespace Sys2Proof.Machine

section
variable {e : Env} {v : CalValues} {r : Readings} {p q l : Place}

/-- A place at a pass as CL has classed it. -/
def Place.passClassed (e : Env) (v : CalValues) (r : Readings) (p : Place) : Place :=
  ((p.passLoaded e v r).noteBelt p.buckle).passEvaluation e

theorem Place.passSeen_classed : p.passSeen e v r = (((p.passClassed e v r).evalVerdict e).noteFastened e).toStage e := rfl

/-- A sample ends the calibration, or changes the calibration alone and leaves it running where it ran. -/
theorem Place.calSample_cases (e : Env) (v : CalValues) (r : Readings) (p : Place) :
    (∃ st, p.calSample e v r = p.endCal e st) ∨
    ∃ cal, p.calSample e v r = { p with cal := cal } ∧ ({ p with cal := cal } : Place).calRunning = p.calRunning := by
  unfold Place.calSample
  split
  case h_1 => exact .inr ⟨_, rfl, rfl⟩
  case h_2 run hcal =>
    have hruns : p.calRunning = true := by rw [Place.calRunning, hcal]
    split
    · exact .inr ⟨_, rfl, rfl⟩
    · split
      · exact .inl ⟨_, rfl⟩
      · split
        · exact .inl ⟨_, rfl⟩
        · exact .inr ⟨_, rfl, hruns.symm⟩

/-! ## Marks that a pass keeps -/

theorem Place.marksGrow_endCal (e : Env) (st : CalEnd) (p : Place) : p.marksGrow (p.endCal e st) := fun port k h => by
  refine Place.marksGrow_evalVerdict e _ port k (Place.marksGrow_rowOneEvaluation e _ port k ?_)
  exact Place.marksGrow_mark { p with cal := .ended st } .cal port k h

theorem Place.marksGrow_calSample (e : Env) (v : CalValues) (r : Readings) (p : Place) : p.marksGrow (p.calSample e v r) := by
  rcases p.calSample_cases e v r with ⟨st, h⟩ | ⟨cal, h, -⟩
  · rw [h]; exact p.marksGrow_endCal e st
  · rw [h]; exact fun _ _ hk => hk

theorem Place.marksGrow_passClassed : (p.passClassed e v r).marksGrow (p.pass e v r) := fun port k h => by
  refine Place.marksGrow_pass port k (Place.marksGrow_calSample e v r _ port k ?_)
  rw [Place.passSeen_classed, Place.marked, Place.toStage_marks, Place.noteFastened_marks]
  exact Place.marksGrow_evalVerdict e _ port k h

/-- The three outcomes of a persistence step (R105). -/
theorem Place.persist_cases (e : Env) (p : Place) (c : Class) :
    (c = p.reported → (p.persist e c).reported = p.reported ∧ (p.persist e c).pendingClass = none ∧ (p.persist e c).count = 0) ∧
    (c ≠ p.reported → e.params.threshold c ≤ (if p.pendingClass = some c then p.count + 1 else 1) →
      (p.persist e c).reported = c ∧ (p.persist e c).pendingClass = none ∧ (p.persist e c).count = 0 ∧
      ∀ port : Port, (p.persist e c).marked port .cls = true) ∧
    (c ≠ p.reported → (if p.pendingClass = some c then p.count + 1 else 1) < e.params.threshold c →
      (p.persist e c).reported = p.reported ∧ (p.persist e c).pendingClass = some c ∧
      (p.persist e c).count = if p.pendingClass = some c then p.count + 1 else 1) := by
  refine ⟨fun hsame => ?_, fun hother hn => ?_, fun hother hn => ?_⟩
  · subst hsame; rw [Place.persist_same]; exact ⟨rfl, rfl, rfl⟩
  · rw [Place.persist_reached hother hn]
    exact ⟨rfl, rfl, rfl, fun port => by rw [Place.marked_adopt, decide_eq_true rfl, Bool.or_true]⟩
  · rw [Place.persist_below hother hn]; exact ⟨rfl, rfl, rfl⟩

theorem Place.marksGrow_persist (e : Env) (p : Place) (c : Class) : p.marksGrow (p.persist e c) := by
  by_cases hsame : c = p.reported
  · subst hsame; rw [Place.persist_same]; exact fun _ _ h => h
  · rcases le_or_gt (e.params.threshold c) (if p.pendingClass = some c then p.count + 1 else 1) with hn | hn
    · rw [Place.persist_reached hsame hn]
      exact fun port k h => by rw [Place.marked_adopt, h]; rfl
    · rw [Place.persist_below hsame hn]; exact fun _ _ h => h

/-- A pass that reads the buckle otherwise sets BELT (R154). -/
theorem Place.pass_belt (h : p.buckle ≠ (p.passLoaded e v r).buckle) (port : Port) : (p.pass e v r).marked port .belt = true := by
  refine Place.marksGrow_passClassed port .belt ?_
  have hnoted : ((p.passLoaded e v r).noteBelt p.buckle).marked port .belt = true := by
    rw [Place.noteBelt, if_neg h.symm, Place.marked_mark, decide_eq_true rfl, Bool.or_true]
  unfold Place.passClassed Place.passEvaluation
  split
  · exact Place.marksGrow_persist e _ _ port .belt hnoted
  · exact hnoted

/-! ## The class after a pass -/

theorem Place.passLoaded_calRunning (b : Reading) : ((p.passLoaded e v r).noteBelt b).calRunning = p.calRunning := by
  rw [Place.calRunning, Place.noteBelt_cal, Place.passLoaded_eq]
  simp [Place.calRunning, Place.loadFields, Place.passSampled]

theorem Place.passClassed_of_classifies (h : e.classifies p = true) (hq : q.SameLoad (p.passLoaded e v r)) :
    p.passClassed e v r = ((p.passLoaded e v r).noteBelt p.buckle).persist e (decisionTable e.params q p.reported) := by
  have hcandidate : ((p.passLoaded e v r).noteBelt p.buckle).candidate e.params = decisionTable e.params q p.reported := by
    rw [Place.candidate_eq, Place.noteBelt_reported, Place.passLoaded_reported, hq.decisionTable_eq, Place.noteBelt_eq]
    rfl
  rw [← hcandidate]
  refine if_pos ?_
  rw [Env.classifies, Place.passLoaded_calRunning]
  exact h

theorem Place.passClassed_of_idle (h : e.classifies p = false) :
    p.passClassed e v r = (p.passLoaded e v r).noteBelt p.buckle := by
  refine if_neg ?_
  rw [Env.classifies, Place.passLoaded_calRunning]
  exact Bool.not_eq_true _ ▸ h


/-- A place with no calibration running leaves the pass with the class that CL left. -/
theorem Place.pass_class_of_rest (hrest : p.calRunning = false) :
    (p.pass e v r).reported = (p.passClassed e v r).reported ∧ (p.pass e v r).pendingClass = (p.passClassed e v r).pendingClass ∧
    (p.pass e v r).count = (p.passClassed e v r).count := by
  have hidle : (p.passSeen e v r).calSample e v r = p.passSeen e v r :=
    Place.calSample_idle (by rw [Place.calRunning, Place.passSeen_cal]; exact hrest)
  rw [Place.pass_eq, hidle, Place.passSeen_classed]
  simp

/-- The persistence step of a pass in RUN with no calibration running (R103 to R106). -/
theorem Place.pass_class (hq : q.agrees (p.pass e v r)) (hgrow : (p.pass e v r).marksGrow q) (hrun : e.mode = .run)
    (hrest : p.calRunning = false) :
    let candidate := decisionTable e.params q p.reported
    let count := if p.pendingClass = some candidate then p.count + 1 else 1
    (candidate = p.reported → q.reported = p.reported ∧ q.pendingClass = none ∧ q.count = 0) ∧
    (candidate ≠ p.reported → e.params.threshold candidate ≤ count →
      q.reported = candidate ∧ q.pendingClass = none ∧ q.count = 0 ∧ ∀ port : Port, q.marked port .cls = true) ∧
    (candidate ≠ p.reported → count < e.params.threshold candidate →
      q.reported = p.reported ∧ q.pendingClass = some candidate ∧ q.count = count) := by
  intro candidate count
  have hclassed := Place.passClassed_of_classifies (by simp [Env.classifies, hrun, hrest]) (Place.pass_sameLoad hq)
  obtain ⟨hreported, hpending, hcount⟩ := Place.pass_class_of_rest (e := e) (v := v) (r := r) hrest
  obtain ⟨hsame, hreached, hbelow⟩ := Place.persist_cases e ((p.passLoaded e v r).noteBelt p.buckle) candidate
  rw [Place.noteBelt_reported, Place.passLoaded_reported, ← hclassed, ← hreported, ← hpending, ← hcount] at hsame hreached hbelow
  have hnext : (if ((p.passLoaded e v r).noteBelt p.buckle).pendingClass = some candidate
      then ((p.passLoaded e v r).noteBelt p.buckle).count + 1 else 1) = count := by
    simp [Place.passLoaded_eq, Place.loadFields, Place.passSampled, count]
  rw [hnext] at hreached hbelow
  have hfields : q.reported = (p.pass e v r).reported ∧ q.pendingClass = (p.pass e v r).pendingClass ∧
      q.count = (p.pass e v r).count := by rw [hq]; exact ⟨rfl, rfl, rfl⟩
  obtain ⟨h1, h2, h3⟩ := hfields
  rw [h1, h2, h3]
  refine ⟨hsame, fun hother hn => ?_, hbelow⟩
  obtain ⟨hc, hp, hz, hmarked⟩ := hreached hother hn
  exact ⟨hc, hp, hz, fun port => hgrow port .cls (Place.marksGrow_passClassed port .cls (hmarked port))⟩

/-- Outside RUN a pass leaves the class (R99, R113). -/
theorem Place.pass_class_of_mode (hmode : e.mode ≠ .run) : (p.pass e v r).reported = p.reported := by
  have hidle : ∀ q : Place, e.classifies q = false := fun q => by simp [Env.classifies, hmode]
  have hended : ∀ (q : Place) (st : CalEnd), (q.endCal e st).reported = q.reported := fun q st => by
    unfold Place.endCal
    dsimp only
    rw [Place.toStage_reported, Place.evalVerdict_reported, Place.rowOneEvaluation_reported, hidle]
    exact if_neg (by simp)
  have hsampled : ((p.passSeen e v r).calSample e v r).reported = (p.passSeen e v r).reported := by
    rcases (p.passSeen e v r).calSample_cases e v r with ⟨st, h⟩ | ⟨cal, h, -⟩
    · rw [h, hended]
    · rw [h]
  rw [Place.pass_eq, Place.markReminder_reported, Place.driftTrim_reported, hsampled, Place.passSeen_classed,
    Place.passClassed_of_idle (hidle p)]
  simp [Place.passLoaded_reported]

/-! ## The fastened flag and the stage (R144, R147 to R151) -/

theorem Place.noteFastened_fastened (e : Env) (p : Place) :
    (p.noteFastened e).fastened = (p.fastened || (decide (p.buckle = .latched) && e.vehicle.ignition)) := by
  unfold Place.noteFastened Place.beltFastened
  rw [beq_eq_decide]
  split
  · rename_i h; rw [h, Bool.or_true]
  · rename_i h; rw [Bool.eq_false_iff.2 h, Bool.or_false]

theorem Place.pass_fastened :
    (p.pass e v r).fastened = (p.fastened || (decide ((p.passLoaded e v r).buckle = .latched) && e.vehicle.ignition)) := by
  have hseen : (p.pass e v r).fastened = (((p.passClassed e v r).evalVerdict e).noteFastened e).fastened := by
    simp [Place.pass_eq, Place.passSeen_classed]
  rw [hseen, Place.noteFastened_fastened]
  simp [Place.passClassed, Place.passLoaded_eq, Place.loadFields, Place.passSampled]

end

end Sys2Proof.Machine
end

section
/-! SUPPORT. The stage after a pass, and the mark of R154 (R147 to R151). -/

namespace Sys2Proof.Machine

/-! ## The evaluation of the stage -/

/-- An evaluation looks at the mode, the vehicle and the parameters of the device. -/
structure Device.SameSurroundings (d d' : Device) : Prop where
  mode    : d'.mode = d.mode
  vehicle : d'.vehicle = d.vehicle
  params  : d'.params = d.params

namespace Device.SameSurroundings

variable {d d' e e' : Device} {p q : Place}

theorem needsBelt_iff (h : d.SameSurroundings d') (p : Place) : d'.needsBelt p ↔ d.needsBelt p := by
  unfold Device.needsBelt; rw [h.mode, h.vehicle]

theorem stageAfter_eq (h : d.SameSurroundings d') (p : Place) : d'.stageAfter p = d.stageAfter p := by
  unfold Device.stageAfter; simp only [h.needsBelt_iff, h.vehicle, h.params]

theorem reminderMoved_iff (hd : d.SameSurroundings d') (he : e.SameSurroundings e') : d'.reminderMoved e' p q ↔ d.reminderMoved e p q := by
  unfold Device.reminderMoved; rw [hd.needsBelt_iff, he.needsBelt_iff]

end Device.SameSurroundings

section
variable {d e : Device} {p p0 q : Place}

/-- The stage after an evaluation follows from the buckle, the class, the stage with its timer, the policy and the fastened flag. -/
theorem Device.stageAfter_congr (hbuckle : q.buckle = p.buckle) (hreported : q.reported = p.reported) (hstage : q.stage = p.stage)
    (htimer : q.timer = p.timer) (hpolicy : q.policy = p.policy) (hfastened : q.fastened = p.fastened) :
    d.stageAfter q = d.stageAfter p := by
  unfold Device.stageAfter Device.needsBelt
  rw [hbuckle, hreported, hstage, htimer, hpolicy, hfastened]

/-- The mark of R154, where the event left the REMINDER marks of the place to RU. -/
theorem Place.marked_markReminder (d e : Device) (hkeep : p0.keepsReminder p) (port : Port) :
    (p.markReminder d.env p0 e.env).marked port .reminder =
      (p0.marked port .reminder || decide (d.reminderMoved e p0 (p.markReminder d.env p0 e.env))) := by
  have hmoved : d.reminderMoved e p0 (p.markReminder d.env p0 e.env) ↔
      (p.stage ≠ p0.stage ∨ e.env.counted p ≠ d.env.counted p0) := by
    rw [Place.markReminder_eq, ne_eq (e.env.counted p), Bool.eq_iff_iff, e.counted_iff, d.counted_iff]
  rw [decide_eq_decide.2 hmoved, ← hkeep port, Place.markReminder]
  split
  · rename_i h; rw [Place.marked_mark, decide_eq_true rfl, decide_eq_true h]
  · rename_i h; rw [decide_eq_false h, Bool.or_false]

/-- A place that RU has staged once, with the mark of R154, is evaluated. -/
theorem Place.markReminder_evaluated (d e : Device)
    (hstage : (p.stage, p.timer) = e.stageAfter { p with stage := p0.stage, timer := p0.timer }) (hkeep : p0.keepsReminder p) :
    d.evaluated e p0 (p.markReminder d.env p0 e.env) := by
  refine ⟨?_, Place.marked_markReminder d e hkeep⟩
  rw [Place.markReminder_eq]
  exact hstage

end

/-! ## The stage after a pass -/

section
variable {v : CalValues} {r : Readings} {p q : Place}

theorem Place.keepsReminder_endCal (e : Env) (st : CalEnd) (p : Place) : p.keepsReminder (p.endCal e st) := by
  have hmarked : p.keepsReminder ((({ p with cal := .ended st } : Place).mark .cal).restartTrim e) :=
    Place.keepsReminder_mark (p := { p with cal := .ended st }) (by decide)
  exact hmarked.trans ((Place.keepsReminder_rowOneEvaluation e).trans (Place.marked_evalVerdict_reminder e _))

theorem Place.keepsReminder_loadPass (shift : Nat) : p.keepsReminder (p.loadPass shift v r) := by
  have hset : ∀ {q : Place} (k : FaultKind) (on : Bool), p.keepsReminder q → p.keepsReminder (q.setFault k on) :=
    fun k on h => h.trans (Place.keepsReminder_setFault k on)
  unfold Place.loadPass Place.loadFaults
  iterate 6 apply hset
  exact fun _ => rfl

theorem Place.keepsReminder_passClassed (e : Env) : p.keepsReminder (p.passClassed e v r) := by
  have hsampled : p.keepsReminder p.passSampled := Place.keepsReminder_setFault (p := { p with age := 0, fresh := true }) _ _
  have hnoted : ∀ q : Place, q.keepsReminder (q.noteBelt p.buckle) := fun q => by
    unfold Place.noteBelt
    split
    · exact fun _ => rfl
    · exact Place.keepsReminder_mark (by decide)
  have hclassed : ∀ q : Place, q.keepsReminder (q.passEvaluation e) := fun q => by
    unfold Place.passEvaluation
    split
    · exact Place.keepsReminder_persist e _
    · exact fun _ => rfl
  exact hsampled.trans ((Place.keepsReminder_loadPass _).trans ((hnoted _).trans (hclassed _)))

theorem Place.keepsReminder_passSeen (e : Env) : p.keepsReminder (p.passSeen e v r) := fun port => by
  rw [Place.passSeen_classed, Place.marked, Place.toStage_marks, Place.noteFastened_marks]
  exact (Place.marked_evalVerdict_reminder e _ port).trans (Place.keepsReminder_passClassed e port)

theorem Place.keepsReminder_driftTrim (e : Env) : p.keepsReminder (p.driftTrim e v r) := by
  unfold Place.driftTrim
  split
  · unfold Place.trimStep
    dsimp only
    split
    · exact fun port => Place.keepsReminder_setFault _ _ port
    · exact fun _ => rfl
  · exact fun _ => rfl

theorem Place.keepsReminder_calSample (e : Env) : p.keepsReminder (p.calSample e v r) := by
  rcases p.calSample_cases e v r with ⟨st, h⟩ | ⟨cal, h, -⟩
  · rw [h]; exact p.keepsReminder_endCal e st
  · rw [h]; exact fun _ => rfl

/-- The place at a pass before the mark of R154. -/
def Place.passUnmarked (e : Env) (v : CalValues) (r : Readings) (p : Place) : Place :=
  ((p.passSeen e v r).calSample e v r).driftTrim e v r

theorem Place.pass_unmarked (e : Env) : p.pass e v r = (p.passUnmarked e v r).markReminder e p e := rfl

theorem Place.keepsReminder_passUnmarked (e : Env) : p.keepsReminder (p.passUnmarked e v r) :=
  (Place.keepsReminder_passSeen e).trans ((Place.keepsReminder_calSample e).trans (Place.keepsReminder_driftTrim e))

theorem Place.toStage_stage (e : Env) (p : Place) : ((p.toStage e).stage, (p.toStage e).timer) = e.nextStage p := rfl

/-- RU's stage at a pass follows from the stage before it and the class that CL has left. -/
theorem Place.passSeen_stage (d : Device) :
    ((p.passSeen d.env v r).stage, (p.passSeen d.env v r).timer) =
      d.stageAfter { p.passSeen d.env v r with stage := p.stage, timer := p.timer } := by
  rw [Place.passSeen_classed, Place.toStage_stage, d.nextStage_eq]
  refine Device.stageAfter_congr ?_ ?_ ?_ ?_ ?_ ?_ <;>
    simp [Place.passClassed, Place.passLoaded_eq, Place.loadFields, Place.passSampled]

/-- A place with its calibration ended, before RU's stage (R132). -/
def Place.calReleased (e : Env) (st : CalEnd) (p : Place) : Place :=
  ((((({ p with cal := .ended st } : Place).mark .cal).restartTrim e).rowOneEvaluation e).evalVerdict e)

theorem Place.calReleased_stage (e : Env) (st : CalEnd) (p : Place) :
    (p.calReleased e st).stage = p.stage ∧ (p.calReleased e st).timer = p.timer := by
  rw [Place.calReleased, Place.evalVerdict_stage, Place.evalVerdict_timer, Place.rowOneEvaluation_stage, Place.rowOneEvaluation_timer]
  exact ⟨rfl, rfl⟩

theorem Place.endCal_released (e : Env) (st : CalEnd) (p : Place) : p.endCal e st = (p.calReleased e st).toStage e := rfl

/-- RU's stage at the end of a calibration follows from the stage before it and the class so left (R132). -/
theorem Place.endCal_stage (d : Device) (st : CalEnd) :
    ((p.endCal d.env st).stage, (p.endCal d.env st).timer) =
      d.stageAfter { p.endCal d.env st with stage := p.stage, timer := p.timer } := by
  obtain ⟨hstage, htimer⟩ := p.calReleased_stage d.env st
  rw [Place.endCal_released, Place.toStage_stage, d.nextStage_eq]
  exact Device.stageAfter_congr (by simp) (by simp) hstage htimer (by simp) (by simp)

theorem Place.calRunning_passSeen (e : Env) : (p.passSeen e v r).calRunning = p.calRunning := by
  rw [Place.calRunning, Place.passSeen_cal]; rfl

theorem Place.calRunning_pass (e : Env) : (p.pass e v r).calRunning = ((p.passSeen e v r).calSample e v r).calRunning := by
  rw [Place.calRunning, Place.pass_cal]; rfl

/-- CL leaves the class of a place whose calibration runs (R107). -/
theorem Place.passSeen_reported_of_running (e : Env) (h : p.calRunning = true) : (p.passSeen e v r).reported = p.reported := by
  rw [Place.passSeen_classed, Place.passClassed_of_idle (by simp [Env.classifies, h])]
  simp [Place.passLoaded_reported]

/-- A pass that ends no calibration evaluates the stage once. -/
theorem Place.pass_evaluated (d : Device) (h : p.calRunning = false ∨ (p.pass d.env v r).calRunning = true) :
    d.evaluated d p (p.pass d.env v r) := by
  have hsampled : ∃ cal, (p.passSeen d.env v r).calSample d.env v r = { p.passSeen d.env v r with cal := cal } := by
    rcases h with hrest | hruns
    · exact ⟨_, Place.calSample_idle ((Place.calRunning_passSeen d.env).trans hrest)⟩
    · rcases (p.passSeen d.env v r).calSample_cases d.env v r with ⟨st, hends⟩ | ⟨cal, hcal, -⟩
      · rw [Place.calRunning_pass, hends, Place.calRunning_endCal] at hruns
        cases hruns
      · exact ⟨cal, hcal⟩
  obtain ⟨cal, hcal⟩ := hsampled
  rw [Place.pass_unmarked]
  refine Place.markReminder_evaluated d d ?_ (Place.keepsReminder_passUnmarked d.env)
  rw [Place.passUnmarked, hcal]
  simp only [Place.driftTrim_stage, Place.driftTrim_timer]
  rw [Place.passSeen_stage]
  exact Device.stageAfter_congr (by simp) (by simp) rfl rfl (by simp) (by simp)

/-- A pass that ends a calibration evaluates the stage for the class before it, and once more for the class so left. -/
theorem Place.pass_evaluatedTwice (d : Device) (h : p.calRunning = true) (hended : (p.pass d.env v r).calRunning = false) :
    let q := p.pass d.env v r
    let first := d.stageAfter { q with reported := p.reported, stage := p.stage, timer := p.timer }
    (q.stage, q.timer) = d.stageAfter { q with stage := first.1, timer := first.2 } ∧
    ∀ port : Port, q.marked port .reminder = (p.marked port .reminder || decide (d.reminderMoved d p q)) := by
  intro q first
  refine ⟨?_, Place.marked_markReminder d d (Place.keepsReminder_passUnmarked d.env)⟩
  have hends : ∃ st, (p.passSeen d.env v r).calSample d.env v r = (p.passSeen d.env v r).endCal d.env st := by
    refine ((p.passSeen d.env v r).calSample_cases d.env v r).resolve_right ?_
    rintro ⟨cal, hcal, hruns⟩
    rw [Place.calRunning_pass, hcal, hruns, Place.calRunning_passSeen, h] at hended
    cases hended
  obtain ⟨st, hst⟩ := hends
  have hfirst : first = ((p.passSeen d.env v r).stage, (p.passSeen d.env v r).timer) := by
    rw [Place.passSeen_stage]
    exact Device.stageAfter_congr (by simp [q, Place.pass_eq]) (Place.passSeen_reported_of_running d.env h).symm rfl rfl
      (by simp [q, Place.pass_eq]) (by simp [q, Place.pass_eq])
  have hpass : q = (((p.passSeen d.env v r).endCal d.env st).driftTrim d.env v r).markReminder d.env p d.env := by
    rw [← hst]; rfl
  rw [hfirst, hpass]
  simp only [Place.markReminder_stage, Place.markReminder_timer, Place.driftTrim_stage, Place.driftTrim_timer]
  rw [Place.endCal_stage]
  exact Device.stageAfter_congr (by simp) (by simp) rfl rfl (by simp) (by simp)

end

end Sys2Proof.Machine
end

section
/-! PROOF. The passes of a succeeded scan (O46). -/

namespace Sys2Proof.Machine

/-! ## The station and the list after the scan -/

section
variable {d : Device} {c : Code} {payload : List Byte}

theorem Device.scanSucceeded_env : (d.scanSucceeded c payload).env = d.env :=
  Device.env_of_still (Device.goes_scanSucceeded (held_work d.env) c payload).still

theorem Device.takeUpTest_failures : ((d.takeUpTest c).station c).failures = (d.station c).failures := by
  unfold Device.takeUpTest; split
  · simp [Device.beginTest]
  · rfl

theorem Device.takeUpTest_scan (h : (d.record c).scan = none) : ((d.takeUpTest c).record c).scan = none := by
  unfold Device.takeUpTest; split
  · simp [Device.beginTest]
  · exact h

theorem Device.scanSucceeded_failures : ((d.scanSucceeded c payload).station c).failures = 0 := by
  rw [Device.scanSucceeded_eq, Device.takeUpTest_failures, Device.scanCounted, (Device.askStores_records _ _ _).1]
  simp

theorem Device.scanSucceeded_scan : ((d.scanSucceeded c payload).record c).scan = none := by
  rw [Device.scanSucceeded_eq]
  refine Device.takeUpTest_scan ?_
  rw [Device.scanCounted, (Device.askStores_records _ _ _).2]
  simp

theorem Device.scanSucceeded_ids : (d.scanSucceeded c payload).places.map Place.id = d.places.map Place.id := by
  rw [Device.scanSucceeded_places]
  refine map_ids_of (fun p => ?_) _
  unfold Place.ofStation
  split
  · exact Place.pass_id _ _ _ p
  · rfl

/-- The places of the other stations take no pass. -/
theorem Device.passTaken_elsewhere {n : Nat} {p : Place} (hp : d.places[n]? = some p) (hc : p.id.station ≠ c) :
    (d.passTaken c payload).places[n]? = some p := by
  rw [Device.passTaken, Device.mapPlaces_places, List.getElem?_map, hp]
  exact congrArg some (if_neg hc)

theorem Device.settled_ids (hlist : d.places.map Place.id = d.newList) : d.settled.places.map Place.id = d.places.map Place.id := by
  rw [hlist, ← d.rebuild_ids]
  unfold Device.settled
  split
  · exact (Device.leavesTable_completeStartup _).ids
  · rfl

/-- While the list stands and the mode stays, the end of the exchange leaves every place. -/
theorem Device.settled_places_of_mode (hlist : d.places.map Place.id = d.newList) (hmode : d.settled.mode = d.mode) :
    d.settled.places = d.places := by
  obtain ⟨hplaces, -⟩ := Device.rebuild_of_listed hlist
  unfold Device.settled at hmode ⊢
  split
  · rename_i hfinished
    rw [if_pos hfinished, Device.completeStartup_mode, d.rebuild_mode] at hmode
    have hrunning : d.mode ≠ .startUp := fun h => by rw [if_pos h, h] at hmode; cases hmode
    rw [Device.completeStartup_otherwise (by rwa [d.rebuild_mode]), hplaces]
  · exact hplaces

end

/-! ## LU's results, as the statement tells them -/

section
variable {e : Env} {v : CalValues} {r : Readings} {p q : Place}

theorem Place.pass_load (hq : q.agrees (p.pass e v r)) :
    let cells := contributions p v r
    let missing := missingCells v r
    q.fresh = true ∧ q.age = 0 ∧ q.hasFault .nodeSilent = false ∧
    q.buckle = buckleOf r.inputs ∧ q.leftAnchor = leftAnchorOf r.inputs ∧ q.rightAnchor = rightAnchorOf r.inputs ∧
    q.total = clampTotal (rawTotal cells missing) ∧
    q.atLeast = (rawTotal cells missing).any (fun total => cellsSaturated v r || decide (65534 < total)) ∧
    q.degraded = decide (missing = 1) ∧ q.conc = concentration cells q.total ∧
    q.filter = filterAfter e.params.filterShift p.filter q.total ∧
    q.hasFault .cellOpen = decide (1 ≤ missing) ∧ q.hasFault .cellsOpen = decide (2 ≤ missing) ∧
    q.hasFault .cellSat = cellsSaturated v r ∧
    q.hasFault .anchorFault = decide (q.leftAnchor = .fault ∨ q.rightAnchor = .fault) ∧
    q.partialCount = partialAfter p.partialCount q.leftAnchor q.rightAnchor ∧
    q.hasFault .anchorPartial = anchorPartialAfter q.partialCount q.leftAnchor q.rightAnchor (p.hasFault .anchorPartial) ∧
    q.hasFault .buckleFault = decide (q.buckle = .fault) := by
  have hload := Place.pass_sameLoad hq
  have hnotLive : p.passSampled.hasFault .nodeSilent = false := (Place.hasFault_setFault ..).trans (if_pos rfl)
  have hpartialBefore : p.passSampled.hasFault .anchorPartial = p.hasFault .anchorPartial :=
    (Place.hasFault_setFault ..).trans (if_neg (by decide))
  have hfault : ∀ k : FaultKind, k ≠ .driftLimit → q.hasFault k = _ := fun k hk =>
    (hload.hasFault k hk).trans (Place.hasFault_loaded v r (p.passSampled.loadFields e.params.filterShift v r) k)
  have hfresh : p.passSampled.fresh = true := Place.setFault_fresh ..
  have hage : p.passSampled.age = 0 := Place.setFault_age ..
  have hfields := p.loadFields_passSampled e v r
  rw [hload.fresh, hload.age, hload.buckle, hload.leftAnchor, hload.rightAnchor, hload.total, hload.atLeast, hload.degraded, hload.conc,
    hload.filter, hload.partialCount, hfault .nodeSilent (by decide), hfault .cellOpen (by decide), hfault .cellsOpen (by decide),
    hfault .cellSat (by decide), hfault .anchorFault (by decide), hfault .anchorPartial (by decide), hfault .buckleFault (by decide),
    Place.passLoaded_eq, hfields]
  simp only [Place.loadFaults_fresh, Place.loadFaults_age, Place.loadFaults_buckle, Place.loadFaults_leftAnchor,
    Place.loadFaults_rightAnchor, Place.loadFaults_total, Place.loadFaults_atLeast, Place.loadFaults_degraded, Place.loadFaults_conc,
    Place.loadFaults_filter, Place.loadFaults_partialCount, true_and, and_true]
  exact ⟨hfresh, hage, hnotLive, congrArg _ hpartialBefore⟩

end

/-! ## The exchange -/

theorem Device.SameSurroundings.evaluated {d d' e e' : Device} {p q : Place} (hd : d.SameSurroundings d') (he : e.SameSurroundings e')
    (h : d.evaluated e p q) : d'.evaluated e' p q := by
  obtain ⟨hstage, hmarked⟩ := h
  exact ⟨hstage.trans (he.stageAfter_eq _).symm,
    fun port => (hmarked port).trans (by rw [decide_eq_decide.2 (hd.reminderMoved_iff he)])⟩

/-- After LC has closed an exchange the surroundings of an evaluation are those before it. -/
theorem Device.Heard.sameSurroundings {d e : Device} {m : Moment} (h : d.Heard m e) : e.SameSurroundings d where
  mode := (d.atMoment_mode m).symm.trans (congrArg Env.mode h.env :).symm
  vehicle := (d.atMoment_vehicle m).symm.trans (congrArg Env.vehicle h.env :).symm
  params := (d.atMoment_params m).symm.trans (congrArg Env.params h.env :).symm

/-- From `d` to `e` a scan of a station has succeeded: its failure count is 0 and the scan has ended, the list stands, and each place is
as the passes left it but for what a completion of start-up evaluates. -/
structure Device.Scanned (d : Device) (c : Code) (payload : List Byte) (e : Device) : Prop where
  failures     : (e.station c).failures = 0
  scan         : (e.record c).scan = none
  ids          : e.places.map Place.id = d.places.map Place.id
  place        : ∀ {n : Nat} {r : Place}, (d.passTaken c payload).places[n]? = some r →
    ∃ q, e.places[n]? = some q ∧ q.agrees r ∧ r.marksGrow q
  keepsPlaces  : e.mode = d.mode → e.places = (d.passTaken c payload).places
  surroundings : e.mode = d.mode → d.SameSurroundings e

theorem Device.scanned_settled {d : Device} (c : Code) (payload : List Byte) (hlist : d.places.map Place.id = d.newList) :
    d.Scanned c payload (d.scanSucceeded c payload).settled := by
  have hlisted := Device.scanSucceeded_listed (c := c) (payload := payload) hlist
  have henv := Device.scanSucceeded_env (d := d) (c := c) (payload := payload)
  constructor
  case failures => rw [Device.settled_station_eq]; exact Device.scanSucceeded_failures
  case scan => rw [Device.settled_record]; exact Device.scanSucceeded_scan
  case ids => rw [Device.settled_ids hlisted, Device.scanSucceeded_ids]
  case place =>
    intro n r hr
    rw [← Device.scanSucceeded_places] at hr
    exact Device.settled_place hlisted hr
  case keepsPlaces =>
    intro hmode
    rw [Device.settled_places_of_mode hlisted (hmode.trans (congrArg Env.mode henv :).symm), Device.scanSucceeded_places]
  case surroundings =>
    exact fun hmode => ⟨hmode, (Device.settled_vehicle _).trans (congrArg Env.vehicle henv :),
      (Device.settled_params _).trans (congrArg Env.params henv :)⟩

theorem Device.Scanned.finish {d e : Device} {c : Code} {payload : List Byte} (h : d.Scanned c payload e) :
    d.Scanned c payload e.finish := by
  obtain ⟨hfailures, hscan, hids, hplace, hkeeps, hsame⟩ := h
  refine ⟨hfailures, hscan, hids, hplace, hkeeps, fun hmode => ?_⟩
  obtain ⟨hm, hv, hp⟩ := hsame hmode
  exact ⟨hm, hv, hp⟩

/-- A SAMPLE that succeeds ends its exchange with the passes of the station's places (R64, R66). -/
theorem exec_scanSucceeded {m : Moment} {ch : RxChar} {s : State} {x : Exchange} {a : Answer} (hmap : s.dev.mapLaw)
    (hx : s.dev.lc.exchange = some x) (hp : x.phase = some .awaiting ∨ x.phase = some .receiving)
    (ha : checkAnswer x.cmd (s.dev.station x.station).count (x.rx ++ [ch.data]) (charWellFormed ch) = .accepted a)
    (hc : x.cmd = .sample) (hb : x.block = .ss) (hscan : (s.dev.record x.station).scan.isSome = true)
    (hr : a.result = .ack) (hboot : a.boot = false) (hex : a.excited = true) (hpat : a.pattern = false) :
    ∃ d e : Device, s.dev.Heard m d ∧ d.Scanned x.station a.payload e ∧
      exec (.linkCharacterReceived m ch) s = .next { s with dev := e } := by
  obtain ⟨d, rx, hd, he⟩ := exec_of_endOf_handed hx (endOf_accepted (m := m) hp ha (by rw [hc]; decide))
  have hhanded : d.handed { x with rx := rx } (.answered a x.attempt) = d.scanSucceeded x.station a.payload := by
    rw [Device.handed_scan (x := { x with rx := rx }) hb (by rw [hd.scan]; exact hscan)]
    change d.scanOutcome x.station x.cmd _ = _
    rw [hc, Device.scanOutcome_sample _ hboot, if_pos ⟨hr, hex, hpat⟩]
  rw [hhanded] at he
  exact ⟨d, _, hd, (Device.scanned_settled _ _ (hd.listed hmap)).finish, he⟩

/-- Settles O46: LU's results by `Place.pass_load`, the class by `Place.pass_class`, the stage by `Place.pass_evaluated` and
`Place.pass_evaluatedTwice`; the list stands, so that a place keeps its number (`Device.Scanned`). -/
theorem aSucceededScanMakesAPassOfEachPlace : Obligations.ASucceededScanMakesAPassOfEachPlace := by
  intro m ch s x a hmap hx hphase ha hc hb hscan hr hboot hex hpat
  obtain ⟨d, e, hd, hscanned, he⟩ := exec_scanSucceeded (m := m) hmap hx hphase ha hc hb hscan hr hboot hex hpat
  have hbefore := hd.sameSurroundings
  have hids : e.places.map Place.id = s.dev.places.map Place.id := hscanned.ids.trans (congrArg _ hd.places)
  have hgeneration := (theGenerationCountsListChanges _ s _ he nofun).1 hids
  refine ⟨_, he, hscanned.failures, hscanned.scan, hids, hgeneration, fun n p q hp hq => ?_⟩
  change e.places[n]? = some q at hq
  rw [← hd.places] at hp
  have hsame : ∀ {r : Place}, e.mode = s.dev.mode → (d.passTaken x.station a.payload).places[n]? = some r → q = r := by
    intro r hmode hpassed
    rw [hscanned.keepsPlaces (hmode.trans hbefore.mode), hpassed] at hq
    exact (Option.some.inj hq).symm
  refine ⟨fun hpc => ?other, fun hpc => ?station⟩
  case other =>
    have hpassed := Device.passTaken_elsewhere (payload := a.payload) hp hpc
    obtain ⟨q', hq', hagrees, -⟩ := hscanned.place hpassed
    obtain rfl : q' = q := Option.some.inj (hq'.symm.trans hq)
    exact ⟨hagrees, fun hmode => hsame hmode hpassed⟩
  case station =>
    intro v r cells missing saturated candidate count
    have hpassed := Device.passTaken_place (payload := a.payload) hp hpc
    rw [hd.station] at hpassed
    obtain ⟨q', hq', hagrees, hgrow⟩ := hscanned.place hpassed
    obtain rfl : q' = q := Option.some.inj (hq'.symm.trans hq)
    have hload := Place.pass_sameLoad hagrees
    have hmode : d.env.mode = s.dev.mode := hbefore.mode.symm
    have hparams : d.env.params = s.dev.params := hbefore.params.symm
    have hvehicle : d.env.vehicle = s.dev.vehicle := hbefore.vehicle.symm
    have hreported : q'.reported = (p.pass d.env v r).reported := by rw [hagrees]
    have hfastened : q'.fastened = (p.pass d.env v r).fastened := by rw [hagrees]
    obtain ⟨hfresh, hage, hnodeSilent, hbuckle, hleft, hright, htotal, hatLeast, hdegraded, hconc, hfilter, hopen, hopens, hsat, hanchor,
      hcount, hpartial, hbuckleFault⟩ := Place.pass_load hagrees
    rw [hparams] at hfilter
    refine ⟨hfresh, hage, hnodeSilent, hbuckle, hleft, hright, htotal, hatLeast, hdegraded, hconc, hfilter, hopen, hopens, hsat, hanchor,
      hcount, hpartial, hbuckleFault, fun hread port => ?belt, fun hrun hrest => ?run, fun hrun => ?notRun, ?fastened,
      fun hstays hcal => ?once, fun hstays hruns hended => ?twice⟩
    case belt => exact hgrow port .belt (Place.pass_belt (hload.buckle ▸ hread) port)
    case run =>
      have hclass := Place.pass_class hagrees hgrow (hmode.trans hrun) hrest
      rw [hparams] at hclass
      exact hclass
    case notRun => exact hreported.trans (Place.pass_class_of_mode (by rw [hmode]; exact hrun))
    case fastened => rw [hfastened, Place.pass_fastened, ← hload.buckle, hvehicle]
    case once =>
      obtain rfl := hsame hstays hpassed
      exact hbefore.evaluated (hscanned.surroundings (hstays.trans hbefore.mode)) (Place.pass_evaluated d hcal)
    case twice =>
      have hafter := hscanned.surroundings (hstays.trans hbefore.mode)
      obtain rfl := hsame hstays hpassed
      obtain ⟨hstage, hmarked⟩ := Place.pass_evaluatedTwice d hruns hended
      refine ⟨?_, fun port => (hmarked port).trans (by rw [decide_eq_decide.2 (hbefore.reminderMoved_iff hafter)])⟩
      simp only [hafter.stageAfter_eq]
      exact hstage

end Sys2Proof.Machine
end

section
/-! PROOF. The filter's step toward the total (O45). -/

namespace Sys2Proof.Machine

/-! ## The size of a step (R87) -/

/-- How far the filter moves when it lies `n` load units from the total: the shifted difference, and one unit where that is 0. -/
def filterStride (shift n : Nat) : Nat := max (n / 2 ^ shift) (min n 1)

theorem filterStride_le (shift n : Nat) : filterStride shift n ≤ n :=
  max_le (Nat.div_le_self n _) (min_le_left n 1)

@[simp] theorem filterStride_zero (shift : Nat) : filterStride shift 0 = 0 := Nat.le_zero.1 (filterStride_le shift 0)

theorem filterStride_pos (shift : Nat) {n : Nat} (h : 0 < n) : 0 < filterStride shift n :=
  lt_max_of_lt_right (lt_min h one_pos)

theorem filterStride_noShift (n : Nat) : filterStride 0 n = n := by
  rw [filterStride, pow_zero, Nat.div_one, max_eq_left (min_le_left n 1)]

theorem filterStride_of_le {shift n : Nat} (h : 2 ^ shift ≤ n) : filterStride shift n = n / 2 ^ shift :=
  max_eq_left ((min_le_right n 1).trans (Nat.div_pos h (Nat.two_pow_pos shift)))

/-- Truncation toward zero makes steps up and steps down the same. -/
theorem filterStep_swap (shift f t : Nat) : filterStep shift t f = -filterStep shift f t := by
  have hd : (f : Int) - t = -((t : Int) - f) := by omega
  unfold filterStep
  simp only [hd, Int.neg_tdiv, Int.sign_neg, neg_eq_zero]
  split <;> rfl

theorem filterStep_up (shift f n : Nat) : filterStep shift f (f + n) = filterStride shift n := by
  have hd : ((f + n : Nat) : Int) - f = n := by omega
  have hdiv : (n : Int).tdiv (2 ^ shift : Nat) = (n / 2 ^ shift : Nat) := (Int.ofNat_tdiv n _).symm
  unfold filterStep filterStride
  simp only [hd, hdiv]
  rcases Nat.eq_zero_or_pos n with rfl | hn
  · simp
  · have hsign : (n : Int).sign = 1 := Int.sign_eq_one_of_pos (by omega)
    rw [hsign]
    generalize n / 2 ^ shift = k
    split <;> omega

theorem filterStep_down (shift t n : Nat) : filterStep shift (t + n) t = -(filterStride shift n : Int) := by
  rw [filterStep_swap, filterStep_up]

/-! ## The filter after a pass (R85 to R87) -/

theorem filterAfter_up {shift f t : Nat} (h : f ≤ t) :
    filterAfter shift (some f) (some t) = some (f + filterStride shift (t - f)) := by
  obtain ⟨n, rfl⟩ := Nat.exists_eq_add_of_le h
  simp only [filterAfter, filterStep_up, Nat.add_sub_cancel_left, Option.some.injEq]
  omega

theorem filterAfter_down {shift f t : Nat} (h : t ≤ f) :
    filterAfter shift (some f) (some t) = some (f - filterStride shift (f - t)) := by
  obtain ⟨n, rfl⟩ := Nat.exists_eq_add_of_le h
  simp only [filterAfter, filterStep_down, Nat.add_sub_cancel_left, Option.some.injEq]
  omega

theorem filterAfter_noShift (f t : Nat) : filterAfter 0 (some f) (some t) = some t := by
  rcases le_total f t with h | h
  · rw [filterAfter_up h, filterStride_noShift, Nat.add_sub_of_le h]
  · rw [filterAfter_down h, filterStride_noShift, Nat.sub_sub_self h]

/-- Settles O45: the filter moves by `filterStride`, up or down, which is positive and no more than the difference. -/
theorem theFilterMovesTowardTheTotal : Obligations.TheFilterMovesTowardTheTotal := by
  intro shift f t
  refine ⟨rfl, rfl, rfl, filterAfter_noShift f t, ?_⟩
  rcases lt_trichotomy f t with hlt | rfl | hgt
  · have hle := filterStride_le shift (t - f)
    have hpos := filterStride_pos shift (Nat.sub_pos_of_lt hlt)
    exact ⟨_, filterAfter_up hlt.le, fun _ => ⟨by omega, by omega, fun h => by rw [filterStride_of_le h]⟩, by omega, by omega⟩
  · exact ⟨_, filterAfter_up le_rfl, by omega, by omega, fun _ => by simp⟩
  · have hle := filterStride_le shift (f - t)
    have hpos := filterStride_pos shift (Nat.sub_pos_of_lt hgt)
    exact ⟨_, filterAfter_down hgt.le, by omega, fun _ => ⟨by omega, by omega, fun h => by rw [filterStride_of_le h]⟩, by omega⟩

end Sys2Proof.Machine
end

section
/-! PROOF. Every step keeps loads and trims in range (O53). -/

namespace Sys2Proof.Machine

/-! ## The fields in range, through the operations on one place -/

/-- The fields of a place that its two laws read (`Place.inRange`). -/
def Place.measures (p : Place) : Option Nat × Option Nat × Nat × Nat × Nat × Vector Int 12 :=
  (p.total, p.filter, p.conc, p.partialCount, p.age, p.trims)

theorem Place.inRange_of_measures {p q : Place} (hq : q.measures = p.measures) (h : p.inRange) : q.inRange := by
  simp only [Place.measures, Prod.mk.injEq] at hq
  obtain ⟨htotal, hfilter, hconc, hcount, hage, htrims⟩ := hq
  exact Place.inRange_of_eq h htotal hfilter hconc hcount hage htrims

theorem Place.agrees.measures {p q : Place} (h : q.agrees p) : q.measures = p.measures := by rw [h]; rfl

section
variable (e0 e : Env) (p : Place)

@[simp] theorem Place.setFault_measures (k : FaultKind) (on : Bool) : (p.setFault k on).measures = p.measures := by
  rw [Place.setFault_eq]; rfl
@[simp] theorem Place.remind_measures (before : Place) : (p.remind e0 before e).measures = p.measures := by rw [Place.remind_eq]; rfl
@[simp] theorem Place.evalVerdict_measures : (p.evalVerdict e).measures = p.measures := by rw [Place.evalVerdict_eq]; rfl
@[simp] theorem Place.rowOneEvaluation_measures : (p.rowOneEvaluation e).measures = p.measures := by
  rw [Place.rowOneEvaluation_eq]; rfl
@[simp] theorem Place.tickTimer_measures : (p.tickTimer e).measures = p.measures := by
  unfold Place.tickTimer; simp only; repeat' split
  all_goals rfl
@[simp] theorem Place.tripFlag_measures (before after : Bool) : (p.tripFlag before after).measures = p.measures := by
  unfold Place.tripFlag; repeat' split
  all_goals rfl

theorem Place.loseFreshness_measures : (p.loseFreshness e).measures = p.measures := by
  simp only [Place.loseFreshness, Place.remind_measures, Place.evalVerdict_measures, Place.rowOneEvaluation_measures,
    Place.setFault_measures]
  rfl

theorem Place.writePolicy_measures (v : Word) : (p.writePolicy e v).measures = p.measures := by
  have hwritten : ({ p with policy := p.policy.written v } : Place).measures = p.measures := rfl
  unfold Place.writePolicy; simp only
  repeat' split
  all_goals simp [hwritten]

theorem Place.startCal_measures (forced : Bool) : (p.startCal e forced).measures = p.measures := Place.evalVerdict_measures e _

theorem Place.acceptedMap_measures : (p.acceptedMap e0 e).measures = p.measures := by
  have hmark : ∀ q : Place, (q.mark .map).measures = q.measures := fun _ => rfl
  unfold Place.acceptedMap; rw [hmark]
  split
  · rfl
  · exact p.evalVerdict_measures e

theorem Place.unfreeze_measures : (p.unfreeze e0 e).measures = p.measures := by
  simp only [Place.unfreeze, Place.remind_measures, Place.evalVerdict_measures, Place.rowOneEvaluation_measures]
  rfl

variable {p} (h : p.inRange)
include h

/-- The age stops at 65535 (R72). -/
theorem Place.inRange_tick : (p.tick e).inRange := by
  obtain ⟨⟨htotal, hfilter, hconc, hcount, -⟩, htrims⟩ := h
  exact Place.inRange_of_measures (Place.tickTimer_measures e _) ⟨⟨htotal, hfilter, hconc, hcount, min_le_left _ _⟩, htrims⟩

theorem Place.inRange_freeze : (p.freeze e0 e).inRange :=
  Place.inRange_of_measures (Place.remind_measures e0 e _ p) ((range_work e).abortCal _ p.dropPending h)

end

/-- A place joins with no load yet, its age at the limit and its trims 0 (R45). -/
theorem Device.inRange_newPlace (d : Device) (id : Identity) : (d.newPlace id).inRange := by
  have hfresh : ∀ v stamp, (freshPlace id v stamp).inRange := fun v stamp =>
    ⟨⟨rfl, rfl, Nat.zero_le _, Nat.zero_le _, le_rfl⟩, fun i => by simp [freshPlace]⟩
  exact Place.inRange_setFault _ _ _ (Place.inRange_setFault _ _ _ (Place.inRange_setFault _ _ _ (hfresh _ _)))

/-! ## The law of the whole list -/

/-- Every place of the list is in range. -/
abbrev Device.rangeLaw (d : Device) : Prop := ∀ p ∈ d.places, p.inRange

section
variable {d e : Device} (h : d.rangeLaw)
include h

theorem Device.rangeLaw_mapPlaces {f : Place → Place} (hf : ∀ p, p.inRange → (f p).inRange) : (d.mapPlaces f).rangeLaw :=
  List.forall_mem_map.2 fun p hp => hf p (h p hp)

theorem Device.rangeLaw_modifyPlace (n : Nat) {f : Place → Place} (hf : ∀ p, p.inRange → (f p).inRange) :
    (d.modifyPlace n f).rangeLaw := fun q hq => by
  obtain ⟨i, hi⟩ := List.mem_iff_getElem?.1 (show q ∈ d.places.modify n f from hq)
  rw [List.getElem?_modify] at hi
  obtain ⟨p, hp, rfl⟩ := Option.map_eq_some_iff.1 hi
  have hin := h p (List.mem_of_getElem? hp)
  split
  · exact hf p hin
  · exact hin

/-- The work of ST, SS, CU and the places keeps the law. -/
theorem Device.rangeLaw_of_goes (hg : d.Goes (fun p q => p.inRange → q.inRange) e) : e.rangeLaw := fun q hq => by
  obtain ⟨p, hp, hpq⟩ := forall₂_mem_right hg.places hq
  exact hpq (h p hp)

/-- Places that stood before or join keep the law, whatever is judged and marked on them. -/
theorem Device.rangeLaw_of_keptOrNew (he : ∀ q ∈ e.places, ∃ p, d.keptOrNew p ∧ q.agrees p) : e.rangeLaw := fun q hq => by
  obtain ⟨p, hp, hagrees⟩ := he q hq
  refine Place.inRange_of_measures hagrees.measures ?_
  rcases hp with hp | hp
  · exact h p hp
  · rw [hp]; exact d.inRange_newPlace _

theorem Device.rangeLaw_rebuild : d.rebuild.rangeLaw := Device.rangeLaw_of_keptOrNew h fun _ hq => d.mem_rebuild hq

theorem Device.rangeLaw_settled : d.settled.rangeLaw := Device.rangeLaw_of_keptOrNew h fun _ hq => Device.mem_settled hq

theorem Device.rangeLaw_completeStartup : d.completeStartup.rangeLaw := Device.rangeLaw_of_keptOrNew h fun _ hq => by
  obtain ⟨p, hp, hagrees⟩ := Device.mem_completeStartup hq
  exact ⟨p, .inl hp, hagrees⟩

theorem Device.rangeLaw_handed (x : Exchange) (o : LinkOutcome) : (d.handed x o).rangeLaw := by
  have hdeliver : (d.deliver x o).rangeLaw := Device.rangeLaw_of_goes h (Device.goes_deliver (range_work _) x o)
  unfold Device.handed
  split
  · exact Device.rangeLaw_of_goes hdeliver (Device.goes_lateExpiry (range_work _) x.station)
  · exact hdeliver

/-! ## The events of the link -/

theorem Device.rangeLaw_endExchange (x : Exchange) (o : LinkOutcome) : (d.endExchange x o).rangeLaw := by
  have hheard : (d.heard x o).rangeLaw := by rw [Device.rangeLaw, Device.heard_places]; exact h
  rw [Device.endExchange_eq]
  exact Device.rangeLaw_settled (Device.rangeLaw_handed hheard x o)

theorem Device.rangeLaw_launchRetry (x : Exchange) : (d.launchRetry x).rangeLaw := by rw [Device.launchRetry_eq]; exact h

theorem Device.rangeLaw_attemptFailed (x : Exchange) (k : FailKind) : (d.attemptFailed x k).rangeLaw := by
  unfold Device.attemptFailed
  split
  · unfold Device.retry; simp only; split
    · exact h
    · exact Device.rangeLaw_launchRetry h _
  · exact Device.rangeLaw_endExchange h x _

theorem Device.rangeLaw_takeChar (x : Exchange) (ch : RxChar) : (d.takeChar x ch).rangeLaw := by
  unfold Device.takeChar; simp only; split
  · exact h
  · exact h
  · exact Device.rangeLaw_attemptFailed h _ _
  · exact Device.rangeLaw_endExchange h x _

/-! ## The other events of the blocks -/

theorem Device.rangeLaw_probeMark (t : Nat) : (d.probeMark t).rangeLaw := by
  unfold Device.probeMark; simp only
  repeat' split
  · exact h
  · exact Device.rangeLaw_of_goes (by exact h) (Device.goes_askProbe (range_work _) _)
  · exact h

theorem Device.rangeLaw_reProbeMark (c : Code) (t : Nat) : (d.reProbeMark c t).rangeLaw := by
  unfold Device.reProbeMark; simp only; split <;> exact h

theorem Device.rangeLaw_writeParam (id v : Nat) : (d.writeParam id v).rangeLaw := by
  unfold Device.writeParam; simp only; split
  · exact Device.rangeLaw_mapPlaces (by exact h) fun p => Place.inRange_of_measures (by simp)
  · exact h

theorem Device.rangeLaw_lapse : d.lapse.rangeLaw := by
  rw [Device.lapse, Device.rangeLaw, Device.setGlobal_places]
  exact Device.rangeLaw_mapPlaces (by exact h) fun p => Place.inRange_of_measures (by simp)

theorem Device.rangeLaw_supply (ignition : Bool) (speed : Nat) : (d.supply ignition speed).rangeLaw := by
  rw [Device.supply, Device.rangeLaw, Device.setGlobal_places]
  exact Device.rangeLaw_mapPlaces (by exact h) fun p => Place.inRange_of_measures (by simp)

end

/-- A table read takes marks away and nothing else (R166). -/
theorem mem_clearRun {port : Port} {start count n : Nat} {ps : List Place} {q : Place} (h : q ∈ clearRun port start count n ps) :
    ∃ p ∈ ps, q.agrees p := by
  induction ps generalizing n with
  | nil => cases h
  | cons p ps ih =>
    rcases List.mem_cons.1 h with rfl | h
    · refine ⟨p, List.mem_cons_self, ?_⟩
      split <;> rfl
    · obtain ⟨r, hr, hq⟩ := ih h
      exact ⟨r, List.mem_cons_of_mem p hr, hq⟩

/-! ## Every event -/

theorem Device.Event.rangeLaw {d e : Device} {c : Instr} (h : d.Event c e) (hd : d.rangeLaw) : e.rangeLaw := by
  have hm : ∀ m, (d.atMoment m).rangeLaw := fun m => by rw [Device.rangeLaw, Device.atMoment_places]; exact hd
  cases h with
  | quiet | settle | unknownExpiry | recoveryEnd => exact hd
  | grant m choice => cases choice <;> exact hm m
  | frameSent m | noEffect c m => exact hm m
  | char m ch x => exact Device.rangeLaw_takeChar (hm m) x ch
  | attemptFailed c m x k => exact Device.rangeLaw_attemptFailed (hm m) x k
  | heldRetry m x => exact Device.rangeLaw_launchRetry (hm m) x
  | selfRelax c t =>
    split
    · exact Device.rangeLaw_of_goes (by exact hd) (Device.goes_scanFailed (range_work _) c)
    · exact hd
  | tick => exact Device.rangeLaw_mapPlaces hd fun _ => Place.inRange_tick d.env
  | freshnessLoss n p => exact Device.rangeLaw_modifyPlace hd n fun p => Place.inRange_of_measures (p.loseFreshness_measures _)
  | nodeSilent n p => exact Device.rangeLaw_modifyPlace hd n fun p => Place.inRange_setFault p _ _
  | probeMark t => exact Device.rangeLaw_probeMark hd t
  | reProbeMark c t => exact Device.rangeLaw_reProbeMark hd c t
  | silentExpiry c t => exact Device.rangeLaw_rebuild (by exact hd)
  | startupLimit => exact Device.rangeLaw_completeStartup hd
  | lapse t => exact Device.rangeLaw_lapse hd
  | lampTimer n p | chimeTimer n p => exact Device.rangeLaw_modifyPlace hd n fun p => Place.inRange_of_measures (by simp)
  | trimMark n p t => exact Device.rangeLaw_modifyPlace hd n fun _ h => h
  | placeStatus p f | placeFaultsRead p f | placeFaultsClear p f => exact Device.rangeLaw_modifyPlace (hm _) _ fun _ h => h
  | tableRead p f =>
    exact Device.rangeLaw_of_keptOrNew (hm f.moment) fun q hq => by
      obtain ⟨r, hr, hagrees⟩ := mem_clearRun hq
      exact ⟨r, .inl hr, hagrees⟩
  | globalFaultsRead p f | globalFaultsClear p f | setAttn p f => exact hm _
  | setParam p f row => exact Device.rangeLaw_writeParam (hm _) _ _
  | setPolicy p f q =>
    exact Device.rangeLaw_modifyPlace (hm _) _ fun q => Place.inRange_of_measures (q.writePolicy_measures _ _)
  | vehicleState f => exact Device.rangeLaw_supply (hm _) _ _
  | calZero p f => exact Device.rangeLaw_modifyPlace (hm _) _ fun q => Place.inRange_of_measures (q.startCal_measures _ _)
  | linkTest p f c => exact Device.rangeLaw_of_goes (by exact hm f.moment) (Device.goes_takeUpTest (range_work _) c)
  | acceptMap f => exact Device.rangeLaw_mapPlaces (by exact hm f.moment) fun q => Place.inRange_of_measures (q.acceptedMap_measures _ _)
  | freeze f => exact Device.rangeLaw_mapPlaces (by exact hm f.moment) fun _ => Place.inRange_freeze _ _
  | unfreeze f => exact Device.rangeLaw_mapPlaces (by exact hm f.moment) fun q => Place.inRange_of_measures (q.unfreeze_measures _ _)

/-- Settles O53: no place is listed at reset, and every event keeps the places in range (`Device.Event.rangeLaw`). -/
theorem everyStepKeepsLoadsAndTrimsInRange : Obligations.EveryStepKeepsLoadsAndTrimsInRange := by
  intro s t hs h
  have hreset : Device.reset.rangeLaw := fun _ hp => nomatch hp
  exact Device.law_kept_by_step (P := Device.rangeLaw) hreset (fun _ hd => hd) (fun _ _ _ hd he => he.rangeLaw hd) hs h

end Sys2Proof.Machine
end

section
/-! SUPPORT. The class and the verdict of each place through every event: R108's verdict re-evaluated where its conditions change (R109),
both held while FROZEN lasts (R113), and what a place holds as it joins (R45, R110). -/

namespace Sys2Proof.Machine

/-! ## One place, before and after -/

/-- What R108 reads of a place, with the verdict it gives. -/
def Place.judgment (p : Place) : Identity × Class × Verdict × Bool × Bool × Bool :=
  (p.id, p.reported, p.verdict, p.fresh, p.policy.restraintFitted, p.calRunning)

/-- Two surroundings in which R108 gives every place the same verdict. -/
structure Env.JudgesAs (e0 e : Env) : Prop where
  mode     : e.mode = e0.mode
  accepted : e.accepted = e0.accepted

/-- From `p` in the surroundings `e0` to `q` in `e`: the same place, its class and verdict held while FROZEN lasts, and its verdict that
of R108 where it was so before. -/
structure Place.Rejudged (e0 e : Env) (p q : Place) : Prop where
  id     : q.id = p.id
  held   : e0.mode = .frozen → e.mode = .frozen → q.reported = p.reported ∧ q.verdict = p.verdict
  judged : p.judgedBy e0 → q.judgedBy e

section
variable {e0 e1 e : Env} {p q r : Place}

theorem Env.JudgesAs.verdictOf_eq (h : e0.JudgesAs e) (p : Place) : e.verdictOf p = e0.verdictOf p := by
  rw [Env.verdictOf, Env.verdictOf, Env.accepts, Env.accepts, h.mode, h.accepted]

theorem Env.verdictOf_of_judgment (e : Env) (h : q.judgment = p.judgment) : e.verdictOf q = e.verdictOf p := by
  simp only [Place.judgment, Prod.mk.injEq] at h
  obtain ⟨hid, hreported, -, hfresh, hfitted, hruns⟩ := h
  rw [Env.verdictOf, Env.verdictOf, Env.accepts, Env.accepts, hid, hreported, hfresh, hfitted, hruns]

/-- Nothing that R108 reads has changed. -/
theorem Place.Rejudged.of_judgment (he : e0.JudgesAs e) (h : q.judgment = p.judgment) : p.Rejudged e0 e q := by
  have hverdict := e.verdictOf_of_judgment h
  simp only [Place.judgment, Prod.mk.injEq] at h
  obtain ⟨hid, hreported, hkept, -⟩ := h
  refine ⟨hid, fun _ _ => ⟨hreported, hkept⟩, fun hp hm => ?_⟩
  rw [hverdict, he.verdictOf_eq, hkept, hp (by rw [← he.mode]; exact hm)]

/-- CL has re-evaluated the verdict. -/
theorem Place.Rejudged.of_evalVerdict (hid : q.id = p.id)
    (hheld : e0.mode = .frozen → e.mode = .frozen → q.reported = p.reported ∧ q.verdict = p.verdict) :
    p.Rejudged e0 e (q.evalVerdict e) := by
  refine ⟨by rw [Place.evalVerdict_id, hid], fun hm0 hm => ?_, fun _ => Place.judged_evalVerdict e q⟩
  rw [(Place.frozen_evaluations e q hm).1]
  exact hheld hm0 hm

theorem Place.Rejudged.trans (h : p.Rejudged e0 e1 q) (h' : q.Rejudged e1 e r) (hm : e1.mode = e0.mode) : p.Rejudged e0 e r := by
  refine ⟨h'.id.trans h.id, fun hm0 hme => ?_, fun hp => h'.judged (h.judged hp)⟩
  obtain ⟨hreported, hverdict⟩ := h.held hm0 (hm.trans hm0)
  obtain ⟨hreported', hverdict'⟩ := h'.held (hm.trans hm0) hme
  exact ⟨hreported'.trans hreported, hverdict'.trans hverdict⟩

/-- What R108 reads stays from there on. -/
theorem Place.Rejudged.andThen (h : p.Rejudged e0 e q) (hr : r.judgment = q.judgment) : p.Rejudged e0 e r := by
  have hstays : q.Rejudged e e r := .of_judgment ⟨rfl, rfl⟩ hr
  refine ⟨hstays.id.trans h.id, fun hm0 hm => ?_, fun hp => hstays.judged (h.judged hp)⟩
  obtain ⟨hreported, hverdict⟩ := h.held hm0 hm
  obtain ⟨hreported', hverdict'⟩ := hstays.held hm hm
  exact ⟨hreported'.trans hreported, hverdict'.trans hverdict⟩

end

/-! ## The operations on one place -/

section
variable (e0 e : Env) (p : Place)

@[simp] theorem Place.mark_judgment (k : ChangeKind) : (p.mark k).judgment = p.judgment := rfl
@[simp] theorem Place.setFault_judgment (k : FaultKind) (on : Bool) : (p.setFault k on).judgment = p.judgment := by
  rw [Place.setFault_eq]; rfl
@[simp] theorem Place.remind_judgment (before : Place) : (p.remind e0 before e).judgment = p.judgment := by
  rw [Place.remind_eq]; rfl
theorem Place.tick_judgment (d : Device) : (p.tick d.env).judgment = p.judgment := by rw [Place.tick_eq]; rfl
theorem Place.tripFlag_judgment (before after : Bool) : (p.tripFlag before after).judgment = p.judgment := by
  unfold Place.tripFlag; repeat' split
  all_goals rfl

theorem Place.rejudged_loseFreshness : p.Rejudged e e (p.loseFreshness e) := by
  refine ⟨p.loseFreshness_id e, fun _ hm => p.loseFreshness_inFrozen e hm, fun _ => ?_⟩
  have hjudged : (((p.stale e.now).rowOneEvaluation e).evalVerdict e).judgedBy e := Place.judged_evalVerdict e _
  exact (Place.Rejudged.of_judgment ⟨rfl, rfl⟩ (Place.remind_judgment e e _ p)).judged hjudged

/-- A policy written: the verdict is re-evaluated where restraint_fitted changed (R56). -/
theorem Place.rejudged_writePolicy (v : Word) : p.Rejudged e e (p.writePolicy e v) := by
  have hjudged : p.Rejudged e e (p.judgedPolicy e v) := by
    unfold Place.judgedPolicy
    split
    · rename_i hfitted
      exact .of_judgment ⟨rfl, rfl⟩ (by simp only [Place.judgment, hfitted]; rfl)
    · exact .of_evalVerdict rfl fun _ _ => ⟨rfl, rfl⟩
  rw [Place.writePolicy_judged]
  split
  · exact hjudged
  · exact hjudged.andThen (by simp)

theorem Place.rejudged_startCal (forced : Bool) : p.Rejudged e e (p.startCal e forced) :=
  .of_evalVerdict rfl fun _ _ => ⟨rfl, rfl⟩

/-- A map accepted: the verdict is re-evaluated where the accepted status changed (R52). -/
theorem Place.rejudged_acceptedMap (hm : e.mode = e0.mode) : p.Rejudged e0 e (p.acceptedMap e0 e) := by
  unfold Place.acceptedMap
  refine Place.Rejudged.andThen ?_ (Place.mark_judgment _ _)
  split
  · rename_i haccepts
    refine ⟨rfl, fun _ _ => ⟨rfl, rfl⟩, fun hp hf => ?_⟩
    rw [hp (by rw [← hm]; exact hf), Env.verdictOf, Env.verdictOf, hm, haccepts]
  · exact .of_evalVerdict rfl fun _ _ => ⟨rfl, rfl⟩

theorem Place.rejudged_modeChanged : p.Rejudged e0 e (p.modeChanged e0 e) :=
  Place.Rejudged.andThen (.of_evalVerdict (e0 := e0) (e := e) rfl fun _ _ => ⟨rfl, rfl⟩) (by simp [Place.modeChanged])

/-- Entering FROZEN, R108 no longer binds the verdict. -/
theorem Place.rejudged_freeze (h0 : e0.mode ≠ .frozen) (hm : e.mode = .frozen) : p.Rejudged e0 e (p.freeze e0 e) :=
  ⟨p.freeze_id e e0, fun h => absurd h h0, fun _ h => absurd hm h⟩

theorem Place.rejudged_unfreeze (hm : e.mode ≠ .frozen) : p.Rejudged e0 e (p.unfreeze e0 e) :=
  Place.Rejudged.andThen (.of_evalVerdict (e0 := e0) (e := e) (q := p.dropPending.rowOneEvaluation e) (by simp)
    fun _ h => absurd h hm) (by simp [Place.unfreeze])

end

theorem Place.Rejudged.of_laws {e : Env} {p q : Place} (hheld : p.heldBy e q) (hjudged : p.judgedBy e → q.judgedBy e) :
    p.Rejudged e e q :=
  have ⟨hid, hkept⟩ := hheld
  ⟨hid, fun hm _ => hkept hm, hjudged⟩

/-- The work of ST, SS, CU and the places at the end of an exchange. -/
theorem rejudged_work (e : Env) : PlaceWork (Place.Rejudged e e) e where
  refl p := .of_laws ((held_work e).refl p) ((verdict_work e).refl p)
  trans h h' := h.trans h' rfl
  pass v r p := .of_laws ((held_work e).pass v r p) ((verdict_work e).pass v r p)
  reload v p := .of_laws ((held_work e).reload v p) ((verdict_work e).reload v p)
  abortCal st p := .of_laws ((held_work e).abortCal st p) ((verdict_work e).abortCal st p)
  storeEnded acked p := .of_laws ((held_work e).storeEnded acked p) ((verdict_work e).storeEnded acked p)
  setFault k on p := .of_laws ((held_work e).setFault k on p) ((verdict_work e).setFault k on p)

/-! ## The places of the list -/

/-- What a place holds as it joins (R54, R98, R110). -/
structure Place.Joining (p : Place) : Prop where
  reported : p.reported = .unknown
  verdict  : p.verdict = .notFitted
  unfitted : p.policy.restraintFitted = false

theorem Device.newPlace_joining (d : Device) (id : Identity) : (d.newPlace id).Joining := by
  rw [Device.newPlace_eq]
  exact ⟨rfl, rfl, rfl⟩

/-- A place of the list, or one as it joins with an identity that is not listed. -/
abbrev Device.stoodOrJoins (d : Device) (p : Place) : Prop := p ∈ d.places ∨ ((∀ r ∈ d.places, r.id ≠ p.id) ∧ p.Joining)

/-- Every place after an event stood before it, and has been judged anew. -/
abbrev Device.Rejudges (d e : Device) : Prop := ∀ q ∈ e.places, ∃ p ∈ d.places, p.Rejudged d.env e.env q

/-- Every place after an event stood before it or joins at it, and has been judged anew. -/
abbrev Device.RejudgesList (d e : Device) : Prop := ∀ q ∈ e.places, ∃ p : Place, d.stoodOrJoins p ∧ p.Rejudged d.env e.env q

section
variable {d e w : Device}

theorem Device.Rejudges.list (h : d.Rejudges e) : d.RejudgesList e := fun q hq => by
  obtain ⟨p, hp, hpq⟩ := h q hq
  exact ⟨p, .inl hp, hpq⟩

/-- Blocks that R108 does not read may have changed. -/
theorem Device.rejudges_rest (hp : e.places = d.places) (hm : e.mode = d.mode) (ha : e.accepted = d.accepted) : d.Rejudges e :=
  fun q hq => ⟨q, by rwa [hp] at hq, .of_judgment ⟨hm, ha⟩ rfl⟩

theorem Device.rejudges_map {f : Place → Place} (hp : e.places = d.places.map f) (hf : ∀ p : Place, p.Rejudged d.env e.env (f p)) :
    d.Rejudges e := fun q hq => by
  rw [hp] at hq
  obtain ⟨p, hp, rfl⟩ := List.mem_map.1 hq
  exact ⟨p, hp, hf p⟩

theorem Device.rejudges_modifyPlace (n : Nat) {f : Place → Place} (hf : ∀ p : Place, p.Rejudged d.env d.env (f p)) :
    d.Rejudges (d.modifyPlace n f) := fun q hq => by
  obtain ⟨i, hi⟩ := List.mem_iff_getElem?.1 (show q ∈ d.places.modify n f from hq)
  rw [List.getElem?_modify] at hi
  obtain ⟨p, hp, rfl⟩ := Option.map_eq_some_iff.1 hi
  refine ⟨p, List.mem_of_getElem? hp, ?_⟩
  split
  · exact hf p
  · exact .of_judgment ⟨rfl, rfl⟩ rfl

theorem Device.rejudges_of_goes (h : d.Goes (Place.Rejudged d.env d.env) e) : d.Rejudges e := fun q hq => by
  rw [Device.env_of_still h.still]
  exact forall₂_mem_right h.places hq

theorem Device.Rejudges.trans (h : d.Rejudges w) (h' : w.Rejudges e) (hm : w.mode = d.mode) : d.Rejudges e := fun q hq => by
  obtain ⟨r, hr, hrq⟩ := h' q hq
  obtain ⟨p, hp, hpr⟩ := h r hr
  exact ⟨p, hp, hpr.trans hrq hm⟩

theorem Device.rejudges_atMoment (d : Device) (m : Moment) : d.Rejudges (d.atMoment m) :=
  Device.rejudges_rest (d.atMoment_places m) (d.atMoment_mode m) (d.atMoment_accepted m)

/-- What comes before may have changed blocks that R108 does not read. -/
theorem Device.Rejudges.after (h : w.Rejudges e) (hp : w.places = d.places) (hm : w.mode = d.mode) (ha : w.accepted = d.accepted) :
    d.Rejudges e := (Device.rejudges_rest hp hm ha).trans h hm

/-- An event looks at its moment beside what R108 reads. -/
theorem Device.Rejudges.of_atMoment {m : Moment} (h : (d.atMoment m).Rejudges e) : d.Rejudges e :=
  (d.rejudges_atMoment m).trans h (d.atMoment_mode m)

theorem Device.RejudgesList.of_atMoment {m : Moment} (h : (d.atMoment m).RejudgesList e) : d.RejudgesList e := fun q hq => by
  obtain ⟨p, hp, hpq⟩ := h q hq
  unfold Device.stoodOrJoins at hp
  rw [Device.atMoment_places] at hp
  exact ⟨p, hp, Place.Rejudged.trans (.of_judgment ⟨d.atMoment_mode m, d.atMoment_accepted m⟩ rfl) hpq (d.atMoment_mode m)⟩

/-- A table read takes marks away and nothing else (R166). -/
theorem clearRun_judgment {port : Port} {start count n : Nat} {ps : List Place} {q : Place} (h : q ∈ clearRun port start count n ps) :
    ∃ p ∈ ps, q.judgment = p.judgment := by
  induction ps generalizing n with
  | nil => cases h
  | cons p ps ih =>
    rcases List.mem_cons.1 h with rfl | h
    · refine ⟨p, List.mem_cons_self, ?_⟩
      split <;> rfl
    · obtain ⟨r, hr, hq⟩ := ih h
      exact ⟨r, List.mem_cons_of_mem p hr, hq⟩

/-! ## The rebuild and the end of an exchange -/

theorem Device.placeAt_judgment (d : Device) (id : Identity) (n : Nat) :
    ∃ p : Place, d.stoodOrJoins p ∧ (d.placeAt id n).judgment = p.judgment := by
  unfold Device.placeAt
  split
  · rename_i p hp
    refine ⟨p, .inl (List.mem_of_find?_eq_some hp), ?_⟩
    split <;> rfl
  · rename_i hnone
    refine ⟨d.newPlace id, .inr ⟨fun r hr => ?_, d.newPlace_joining id⟩, rfl⟩
    rw [Device.newPlace_id]
    simpa using List.find?_eq_none.1 hnone r hr

/-- A rebuild judges no place that stays (R45). -/
theorem Device.rebuild_judgment {q : Place} (hq : q ∈ d.rebuild.places) : ∃ p : Place, d.stoodOrJoins p ∧ q.judgment = p.judgment := by
  by_cases hlist : d.newList = d.places.map Place.id
  · refine ⟨q, .inl ?_, rfl⟩
    have hlist' : d.newList = d.places.map (·.id) := hlist
    unfold Device.rebuild at hq
    simpa only [hlist', if_true, Device.setGlobal_places] using hq
  · obtain ⟨n, hn⟩ := List.getElem?_of_mem hq
    obtain ⟨p, hp, hjudgment⟩ := d.placeAt_judgment q.id n
    refine ⟨p, hp, ?_⟩
    rw [Place.eq_of_lampMoved (Device.rebuild_place hlist hn)]
    exact hjudgment

theorem Device.rejudges_completeStartup (d : Device) : d.Rejudges d.completeStartup := by
  by_cases hm : d.mode = .startUp
  · obtain ⟨hplaces, -⟩ := Device.completeStartup_inStartUp hm
    exact Device.rejudges_map hplaces (Place.rejudged_modeChanged _ _)
  · exact Device.rejudges_rest (Device.completeStartup_otherwise hm) (by rw [Device.completeStartup_mode, if_neg hm])
      d.completeStartup_accepted

/-- An event that has judged the places anew, and then rebuilds the list. -/
theorem Device.Relists.rejudges (h : d.Relists w e) (hw : d.Rejudges w) (ha : w.accepted = d.accepted) : d.RejudgesList e := fun q hq => by
  have hends : w.rebuild.Rejudges e := by
    rcases h.ends with rfl | rfl
    · exact Device.rejudges_rest rfl rfl rfl
    · exact Device.rejudges_completeStartup _
  obtain ⟨r, hr, hrq⟩ := hends q hq
  obtain ⟨p, hp, hrp⟩ := Device.rebuild_judgment hr
  have hpq : p.Rejudged w.env e.env q :=
    Place.Rejudged.trans (.of_judgment ⟨w.rebuild_mode, w.rebuild_accepted⟩ hrp) hrq w.rebuild_mode
  rcases hp with hp | ⟨hnew, hjoining⟩
  · obtain ⟨p0, hp0, hp0p⟩ := hw p hp
    exact ⟨p0, .inl hp0, hp0p.trans hpq h.mode⟩
  · refine ⟨p, .inr ⟨fun r hr => ?_, hjoining⟩, ?_⟩
    · have hmem : r.id ∈ w.places.map Place.id := by rw [h.kept.ids]; exact List.mem_map_of_mem hr
      obtain ⟨r', hr', hid⟩ := List.mem_map.1 hmem
      rw [← hid]
      exact hnew r' hr'
    · exact Place.Rejudged.trans (.of_judgment ⟨h.mode, ha⟩ rfl) hpq h.mode


theorem Device.rejudges_handed (d : Device) (x : Exchange) (o : LinkOutcome) : d.Rejudges (d.handed x o) := by
  have hdeliver : d.Rejudges (d.deliver x o) := Device.rejudges_of_goes (Device.goes_deliver (rejudged_work _) x o)
  unfold Device.handed
  split
  · refine hdeliver.trans (Device.rejudges_of_goes (Device.goes_lateExpiry (rejudged_work _) x.station)) ?_
    exact (congrArg Device.mode (Device.goes_deliver (rejudged_work _) x o).still :)
  · exact hdeliver

theorem Device.rejudges_endExchange (d : Device) (x : Exchange) (o : LinkOutcome) : d.RejudgesList (d.endExchange x o) := by
  have hheard : d.Rejudges (d.heard x o) := Device.rejudges_rest (Device.heard_places x o) (d.heard_mode x o) (d.heard_accepted x o)
  exact (Device.relists_endExchange x o).rejudges (hheard.trans (Device.rejudges_handed _ x o) (d.heard_mode x o)) (by simp)

theorem Device.rejudges_toAbsent_rebuild (d : Device) (c : Code) : d.RejudgesList (d.toAbsent c).rebuild :=
  (Device.relists_toAbsent c).rejudges (Device.rejudges_rest rfl rfl rfl) rfl

/-! ## The events of the link -/

theorem Device.rejudges_launchRetry (d : Device) (x : Exchange) : d.Rejudges (d.launchRetry x) := by
  rw [Device.launchRetry_eq]
  exact Device.rejudges_rest rfl rfl rfl

theorem Device.rejudges_attemptFailed (d : Device) (x : Exchange) (k : FailKind) : d.RejudgesList (d.attemptFailed x k) := by
  unfold Device.attemptFailed
  split
  · refine Device.Rejudges.list ?_
    unfold Device.retry; simp only; split
    · exact Device.rejudges_rest rfl rfl rfl
    · exact d.rejudges_launchRetry _
  · exact d.rejudges_endExchange x _

theorem Device.rejudges_takeChar (d : Device) (x : Exchange) (ch : RxChar) : d.RejudgesList (d.takeChar x ch) := by
  unfold Device.takeChar; simp only; split
  · exact Device.Rejudges.list (Device.rejudges_rest rfl rfl rfl)
  · exact Device.Rejudges.list (Device.rejudges_rest rfl rfl rfl)
  · exact d.rejudges_attemptFailed _ _
  · exact d.rejudges_endExchange x _

/-! ## The other events of the blocks -/

theorem Device.rejudges_probeMark (d : Device) (t : Nat) : d.Rejudges (d.probeMark t) := by
  unfold Device.probeMark; simp only
  repeat' split
  · exact Device.rejudges_rest rfl rfl rfl
  · exact (Device.rejudges_of_goes (Device.goes_askProbe (rejudged_work _) _)).after rfl rfl rfl
  · exact Device.rejudges_rest rfl rfl rfl

theorem Device.rejudges_reProbeMark (d : Device) (c : Code) (t : Nat) : d.Rejudges (d.reProbeMark c t) := by
  unfold Device.reProbeMark; simp only; split <;> exact Device.rejudges_rest rfl rfl rfl

theorem Device.rejudges_writeParam (d : Device) (id v : Nat) : d.Rejudges (d.writeParam id v) := by
  unfold Device.writeParam; simp only; split
  · exact Device.rejudges_map rfl fun p => .of_judgment ⟨rfl, rfl⟩ (by simp)
  · exact Device.rejudges_rest rfl rfl rfl

theorem Device.rejudges_lapse (d : Device) : d.Rejudges d.lapse := by
  have henv : d.env.JudgesAs d.lapse.env := ⟨Device.setGlobal_mode _ _ _, Device.setGlobal_accepted _ _ _⟩
  exact Device.rejudges_map (by rw [Device.lapse, Device.setGlobal_places]; rfl) fun p => .of_judgment henv (Place.remind_judgment _ _ _ _)

theorem Device.rejudges_supply (d : Device) (ignition : Bool) (speed : Nat) : d.Rejudges (d.supply ignition speed) := by
  have henv : d.env.JudgesAs (d.supply ignition speed).env := ⟨Device.setGlobal_mode _ _ _, Device.setGlobal_accepted _ _ _⟩
  exact Device.rejudges_map (by rw [Device.supply, Device.setGlobal_places]; rfl) fun p =>
    .of_judgment henv ((Place.remind_judgment _ _ _ _).trans (Place.tripFlag_judgment _ _ _))

end

/-! ## Every event -/

/-- At every event every place that stays is judged anew, and a place that joins is UNKNOWN and NOT_FITTED. -/
theorem Device.Event.rejudges {d e : Device} {c : Instr} (h : d.Event c e) : d.RejudgesList e := by
  have hm : ∀ {m : Moment} {e : Device}, (d.atMoment m).Rejudges e → d.RejudgesList e := fun hr => (Device.Rejudges.of_atMoment hr).list
  have hsame : ∀ {m : Moment} {n : Nat} {f : Place → Place}, (∀ p, (f p).judgment = p.judgment) →
      d.RejudgesList ((d.atMoment m).modifyPlace n f) := fun hf =>
    hm (Device.rejudges_modifyPlace _ fun p => .of_judgment ⟨rfl, rfl⟩ (hf p))
  cases h with
  | char m ch x => exact .of_atMoment (Device.rejudges_takeChar _ x ch)
  | attemptFailed c m x k => exact .of_atMoment (Device.rejudges_attemptFailed _ x k)
  | silentExpiry c t => exact d.rejudges_toAbsent_rebuild c
  | startupLimit => exact d.rejudges_completeStartup.list
  | quiet | settle | unknownExpiry | recoveryEnd => exact Device.Rejudges.list (Device.rejudges_rest rfl rfl rfl)
  | frameSent m | noEffect c m => exact hm (Device.rejudges_rest rfl rfl rfl)
  | globalFaultsRead p f | globalFaultsClear p f | setAttn p f => exact hm (Device.rejudges_rest rfl rfl rfl)
  | grant m choice => exact hm (by cases choice <;> exact Device.rejudges_rest rfl rfl rfl)
  | heldRetry m x => exact hm (Device.rejudges_launchRetry _ x)
  | selfRelax c t =>
    refine Device.Rejudges.list ?_
    split
    · exact (Device.rejudges_of_goes (Device.goes_scanFailed (rejudged_work _) c)).after rfl rfl rfl
    · exact Device.rejudges_rest rfl rfl rfl
  | tick => exact Device.Rejudges.list (Device.rejudges_map rfl fun p => .of_judgment ⟨rfl, rfl⟩ (p.tick_judgment d))
  | freshnessLoss n p => exact Device.Rejudges.list (Device.rejudges_modifyPlace n fun p => p.rejudged_loseFreshness _)
  | nodeSilent n p =>
    exact Device.Rejudges.list (Device.rejudges_modifyPlace n fun p => .of_judgment ⟨rfl, rfl⟩ (p.setFault_judgment _ _))
  | probeMark t => exact (d.rejudges_probeMark t).list
  | reProbeMark c t => exact (d.rejudges_reProbeMark c t).list
  | lapse t => exact d.rejudges_lapse.list
  | lampTimer n p | chimeTimer n p =>
    exact Device.Rejudges.list (Device.rejudges_modifyPlace n fun p => .of_judgment ⟨rfl, rfl⟩ (p.remind_judgment _ _ _))
  | trimMark n p t => exact Device.Rejudges.list (Device.rejudges_modifyPlace n fun p => .of_judgment ⟨rfl, rfl⟩ rfl)
  | placeStatus p f | placeFaultsRead p f | placeFaultsClear p f => exact hsame fun _ => rfl
  | tableRead p f =>
    refine hm (m := f.moment) fun q hq => ?_
    obtain ⟨r, hr, hjudgment⟩ := clearRun_judgment hq
    exact ⟨r, hr, .of_judgment ⟨rfl, rfl⟩ hjudgment⟩
  | setParam p f row => exact hm (Device.rejudges_writeParam _ _ _)
  | setPolicy p f q => exact hm (Device.rejudges_modifyPlace _ fun q => q.rejudged_writePolicy _ _)
  | vehicleState f => exact hm (Device.rejudges_supply _ _ _)
  | calZero p f => exact hm (Device.rejudges_modifyPlace _ fun q => q.rejudged_startCal _ _)
  | linkTest p f c =>
    exact hm ((Device.rejudges_of_goes (Device.goes_takeUpTest (rejudged_work _) c)).after rfl rfl rfl)
  | acceptMap f => exact hm (Device.rejudges_map rfl fun q => q.rejudged_acceptedMap _ _ rfl)
  | freeze f hmode =>
    have hfree : (d.atMoment f.moment).env.mode ≠ .frozen := by rw [Device.env, Device.atMoment_mode]; exact hmode
    exact hm (Device.rejudges_map rfl fun q => q.rejudged_freeze _ _ hfree rfl)
  | unfreeze f => exact hm (Device.rejudges_map rfl fun q => q.rejudged_unfreeze _ _ nofun)

end Sys2Proof.Machine
end

section
/-! PROOF. O55 and O56: the verdict law through every step, and what FROZEN holds. -/

namespace Sys2Proof.Machine

/-- R108's conditions for ENABLE. -/
theorem Env.verdictOf_enable_iff (e : Env) (p : Place) :
    e.verdictOf p = .enable ↔ p.policy.restraintFitted = true ∧ e.mode = .run ∧ p.reported = .adult ∧ e.accepts p = true ∧
      p.fresh = true ∧ p.calRunning = false := by
  unfold Env.verdictOf
  cases p.policy.restraintFitted with
  | false => simp
  | true => simp

/-- A place that joins is not fitted, so R108 gives it the verdict it has. -/
theorem Place.Joining.judged {p : Place} (h : p.Joining) (e : Env) : p.judgedBy e := fun _ => by
  rw [h.verdict, Env.verdictOf, if_pos h.unfitted]

theorem Device.Event.verdictLaw {d e : Device} {c : Instr} (h : d.Event c e) (hd : d.verdictLaw) : e.verdictLaw := fun hm q hq => by
  obtain ⟨p, hp, hpq⟩ := h.rejudges q hq
  refine hpq.judged ?_ hm
  rcases hp with hp | ⟨-, hjoining⟩
  · exact fun hm0 => hd hm0 p hp
  · exact hjoining.judged d.env

/-- Settles O55: no place is listed at reset, every event keeps the law (`Device.Event.verdictLaw`), and R108 gives ENABLE on its
conditions alone (`Env.verdictOf_enable_iff`). -/
theorem everyStepKeepsTheVerdictLaw : Obligations.EveryStepKeepsTheVerdictLaw := by
  intro s t hs h
  have hreset : Device.reset.verdictLaw := fun _ _ hp => nomatch hp
  have hlaw := Device.law_kept_by_step (P := Device.verdictLaw) hreset (fun _ hd => hd) (fun _ _ _ hd he => he.verdictLaw hd) hs h
  refine ⟨hlaw, fun hm p hp henable => ?_⟩
  obtain ⟨hfitted, hrun, hadult, haccepted, hfresh, hcal⟩ := (t.dev.env.verdictOf_enable_iff p).1 ((hlaw hm p hp).symm.trans henable)
  exact ⟨hrun, hadult, by simpa [Env.accepts, Device.env] using haccepted, hfresh, hfitted, hcal⟩

/-- A step changes no block, resets them, or takes one event. -/
theorem step_event {s t : State} (h : step s = .next t) :
    t.dev = s.dev ∨ t.dev = Device.reset ∨ ∃ c e, s.dev.Event c e ∧ t.dev = e.finish := by
  unfold step at h
  split at h
  · cases h; exact .inl rfl
  · rename_i c rest _
    by_cases hc : c = .reset
    · subst hc; cases h; exact .inr (.inl rfl)
    · exact (exec_event h hc).imp_right fun ⟨e, he, ht⟩ => .inr ⟨c, e, he, ht⟩

/-- Settles O56: RESET leaves FROZEN, and an event judges each place that stays anew, which FROZEN holds (`Place.Rejudged.held`); a place
that joins holds UNKNOWN and NOT_FITTED (`Place.Joining`). -/
theorem frozenHoldsEveryClassAndVerdict : Obligations.FrozenHoldsEveryClassAndVerdict := by
  intro s t h hbefore hafter q hq
  rcases step_event h with hkept | hreset | ⟨c, e, he, ht⟩
  · exact .inl ⟨q, by rwa [hkept] at hq, rfl, rfl, rfl⟩
  · rw [hreset] at hafter; cases hafter
  · rw [ht] at hafter hq
    obtain ⟨p, hp, hpq⟩ := he.rejudges q hq
    obtain ⟨hreported, hverdict⟩ := hpq.held hbefore hafter
    rcases hp with hp | ⟨hnew, hjoining⟩
    · exact .inl ⟨p, hp, hpq.id.symm, hreported.symm, hverdict.symm⟩
    · exact .inr ⟨by rw [hpq.id]; exact hnew, hreported.trans hjoining.reported, hverdict.trans hjoining.verdict⟩

end Sys2Proof.Machine
end

section
/-! PROOF. O35: SET_PARAM. -/

namespace Sys2Proof.Machine

/-! ## SET_PARAM by its table (R169) -/

theorem Params.value_unknown (q : Params) {id : Nat} (h : paramRow id = none) : q.value id = 0 := by
  unfold Params.value
  split
  case h_17 => rfl
  all_goals cases h

/-- The conditions that a write by id is checked against (R102, R142). -/
theorem Params.inconsistentFor_iff (q : Params) (id : Nat) :
    q.consistentFor id = false ↔
      (4 ≤ id ∧ id ≤ 9 ∧ q.loadsConsistent = false) ∨ ((id = 13 ∨ id = 14) ∧ q.vChime < q.vLamp) := by
  unfold Params.consistentFor
  by_cases hloads : 4 ≤ id ∧ id ≤ 9
  · rw [if_pos hloads]
    refine ⟨fun h => .inl ⟨hloads.1, hloads.2, h⟩, ?_⟩
    rintro (⟨-, -, h⟩ | ⟨hid, -⟩)
    · exact h
    · omega
  · rw [if_neg hloads]
    by_cases hspeeds : id = 13 ∨ id = 14
    · rw [if_pos hspeeds, decide_eq_false_iff_not, not_le]
      refine ⟨fun h => .inr ⟨hspeeds, h⟩, ?_⟩
      rintro (⟨hlow, hhigh, -⟩ | ⟨-, h⟩)
      · exact absurd ⟨hlow, hhigh⟩ hloads
      · exact h
    · rw [if_neg hspeeds]
      refine iff_of_false (by decide) ?_
      rintro (⟨hlow, hhigh, -⟩ | ⟨hid, -⟩)
      · exact hloads ⟨hlow, hhigh⟩
      · exact hspeeds hid

/-- What a write makes of the blocks: the parameter, and every place's stage at a reminder parameter (R142, R151). -/
theorem Device.writeParam_eq (d : Device) (id v : Nat) : d.writeParam id v = { d with
    params := d.params.write id v
    places := if 13 ≤ id then
      d.places.map (fun p => p.remind d.env p { d with params := d.params.write id v }.env) else d.places } := by
  unfold Device.writeParam
  simp only
  split <;> rfl

section
variable {d : Device} {p : Port} {f : Frame}

theorem setParamAnswer_atMoment (m : Moment) (id v : Nat) : setParamAnswer (d.atMoment m) p id v = setParamAnswer d p id v := by
  cases m <;> rfl

theorem setParamAnswer_eq {id v : Nat} : setParamAnswer d p id v =
    match paramRow id with
    | none => .range
    | some row =>
      if row.owner ≠ p then .notPermitted
      else if d.mode = .frozen then .wrongState
      else if v < row.low ∨ row.high < v then .range
      else if (d.params.write id v).consistentFor id = false then .conflict
      else .ok := by
  unfold setParamAnswer
  cases paramRow id with
  | none => rfl
  | some row => simp only [Params.inconsistentFor_iff]

/-- An accepted write is of a known parameter, within its range. -/
theorem setParamAnswer_ok {id v : Nat} (h : setParamAnswer d p id v = .ok) :
    ∃ row, paramRow id = some row ∧ v ≤ row.high := by
  rw [setParamAnswer_eq] at h
  cases hrow : paramRow id with
  | none => simp [hrow] at h
  | some row =>
    refine ⟨row, rfl, not_lt.1 fun hhigh => ?_⟩
    simp only [hrow, hhigh, or_true, if_true] at h
    split at h
    · cases h
    · split at h <;> cases h

/-- An accepted write changes the value of its parameter alone. -/
theorem Params.value_write_ok {id v : Nat} (h : setParamAnswer d p id v = .ok) (j : Nat) :
    (d.params.write id v).value j = if j = id then v else d.params.value j := by
  obtain ⟨row, hrow, hhigh⟩ := setParamAnswer_ok h
  exact d.params.value_write (paramRow_id hrow) (by rintro rfl; cases hrow; exact hhigh) j

/-- The blocks after a SET_PARAM: the parameter written where the table says OK. -/
def Device.paramSet (d : Device) (p : Port) (f : Frame) : Device :=
  if setParamAnswer d p f.selector.toNat f.value.toNat = .ok then d.writeParam f.selector.toNat f.value.toNat else d

theorem Device.paramSet_refused (h : setParamAnswer d p f.selector.toNat f.value.toNat ≠ .ok) : d.paramSet p f = d := if_neg h

theorem Device.paramSet_ok (h : setParamAnswer d p f.selector.toNat f.value.toNat = .ok) :
    d.paramSet p f = d.writeParam f.selector.toNat f.value.toNat := if_pos h

theorem Device.paramSet_value (h : setParamAnswer d p f.selector.toNat f.value.toNat = .ok) (j : Nat) :
    (d.paramSet p f).params.value j = if j = f.selector.toNat then f.value.toNat else d.params.value j := by
  rw [Device.paramSet_ok h, Device.writeParam_eq]
  exact Params.value_write_ok h j

/-- A row of the table that refuses with the parameter's value. -/
theorem setParamRule_eq_of_refused {u : PortUnit} {st : Status} (hne : st ≠ .ok)
    (hanswer : setParamAnswer d p f.selector.toNat f.value.toNat = st)
    (hrule : setParamRule p f d u = Reply.only st (BitVec.ofNat 16 (d.params.value f.selector.toNat)) d u) :
    setParamRule p f d u = {
      status := setParamAnswer d p f.selector.toNat f.value.toNat
      data := BitVec.ofNat 16 ((d.paramSet p f).params.value f.selector.toNat), dev := d.paramSet p f, unit := u } := by
  rw [Device.paramSet_refused (by rw [hanswer]; exact hne), hanswer, hrule]
  rfl

/-- The rule answers by the table, with the parameter's value after the request. -/
theorem setParamRule_eq (p : Port) (f : Frame) (d : Device) (u : PortUnit) : setParamRule p f d u = {
    status := setParamAnswer d p f.selector.toNat f.value.toNat
    data := BitVec.ofNat 16 ((d.paramSet p f).params.value f.selector.toNat), dev := d.paramSet p f, unit := u } := by
  cases hrow : paramRow f.selector.toNat with
  | none =>
    refine setParamRule_eq_of_refused (st := .range) (by decide) (by simp [setParamAnswer_eq, hrow]) ?_
    simp [setParamRule, hrow, d.params.value_unknown hrow]
  | some row =>
    by_cases howner : row.owner = p
    · by_cases hmode : d.mode = .frozen
      · refine setParamRule_eq_of_refused (st := .wrongState) (by decide) ?_ ?_
        · simp [setParamAnswer_eq, hrow, howner, hmode]
        · simp [setParamRule, hrow, howner, hmode]
      · by_cases hrange : f.value.toNat < row.low ∨ row.high < f.value.toNat
        · refine setParamRule_eq_of_refused (st := .range) (by decide) ?_ ?_
          · simp [setParamAnswer_eq, hrow, howner, hmode, hrange]
          · simp [setParamRule, hrow, howner, hmode, hrange]
        · cases hconsistent : (d.params.write f.selector.toNat f.value.toNat).consistentFor f.selector.toNat with
          | false =>
            refine setParamRule_eq_of_refused (st := .conflict) (by decide) ?_ ?_
            · simp [setParamAnswer_eq, hrow, howner, hmode, hrange, hconsistent]
            · simp [setParamRule, hrow, howner, hmode, hrange, hconsistent]
          | true =>
            have hok : setParamAnswer d p f.selector.toNat f.value.toNat = .ok := by
              simp [setParamAnswer_eq, hrow, howner, hmode, hrange, hconsistent]
            rw [Device.paramSet_value hok, if_pos rfl, Device.paramSet_ok hok, hok]
            simp [setParamRule, hrow, howner, hmode, hrange, hconsistent]
    · refine setParamRule_eq_of_refused (st := .notPermitted) (by decide) ?_ ?_
      · simp [setParamAnswer_eq, hrow, howner]
      · simp [setParamRule, hrow, howner]

end

/-- A reminder parameter written: every place's stage is evaluated, and nothing else of it changes (R142, R151, R154). -/
theorem Device.writeParam_place {d : Device} {id v n : Nat} (hid : 13 ≤ id) {q q' : Place} (hq : d.places[n]? = some q)
    (hq' : (d.writeParam id v).places[n]? = some q') :
    q' = { q with stage := q'.stage, timer := q'.timer, marks := q'.marks } ∧ d.evaluated (d.writeParam id v) q q' := by
  have hplaces : (d.writeParam id v).places = d.places.map (fun p => p.remind d.env p (d.writeParam id v).env) := by
    rw [Device.writeParam_eq]
    exact if_pos hid
  rw [hplaces, List.getElem?_map, hq] at hq'
  obtain rfl := Option.some.inj hq'
  exact ⟨by dsimp only; rw [Place.remind_eq], Place.remind_evaluated d _ q q rfl rfl fun _ => rfl⟩

/-- A parameter written leaves every place but for its stage, timer and marks. -/
theorem Device.writeParam_places (d : Device) (id v : Nat) :
    (d.writeParam id v).places.map (fun q => { q with stage := .off, timer := 0, marks := { a := 0, b := 0 } }) =
      d.places.map (fun q => { q with stage := .off, timer := 0, marks := { a := 0, b := 0 } }) := by
  rw [Device.writeParam_eq]
  simp only
  split
  · rw [List.map_map]
    refine List.map_congr_left fun q _ => ?_
    rw [Function.comp_apply, Place.remind_eq]
  · rfl

/-- Settles O35: `setParamRule_eq` gives the answer by the table, `Device.writeParam_eq` and the lemmas after it what an accepted write
does. -/
theorem setParamWritesOneParameter : Obligations.SetParamWritesOneParameter := by
  intro p f s hopen
  generalize hd : s.dev.atMoment f.moment = d
  have hmoment : setParamAnswer d p f.selector.toNat f.value.toNat = setParamAnswer s.dev p f.selector.toNat f.value.toNat := by
    rw [← hd]; exact setParamAnswer_atMoment ..
  have hrule := setParamRule_eq p f d (s.ports.get p)
  obtain ⟨t, hexec, hdev, hanswered, hkept⟩ :=
    State.takeRequest_open s p f Request.setParam.code (setParamRule p f) hopen (by rw [hd, hrule])
  rw [hd, hrule] at hdev hanswered hkept
  have hparams : t.dev.params = (d.paramSet p f).params := by rw [hdev]; rfl
  refine ⟨t, hexec, hkept, by rw [hparams, ← hmoment]; exact hanswered, fun hrefused => ?_, fun hok => ?_⟩
  · rw [State.blocksKept, hdev, Device.paramSet_refused (by rwa [hmoment]), ← hd]
    exact s.dev.kept_finish f.moment
  · have hok' := hmoment.trans hok
    have hvalue : ∀ j, t.dev.params.value j = if j = f.selector.toNat then f.value.toNat else s.dev.params.value j := fun j => by
      rw [hparams, Device.paramSet_value hok', ← hd, Device.atMoment_params]
    rw [Device.paramSet_ok hok'] at hdev
    have hplaces : d.places = s.dev.places := by rw [← hd, Device.atMoment_places]
    have heq := d.writeParam_eq f.selector.toNat f.value.toNat
    refine ⟨(hvalue _).trans (if_pos rfl), fun j hj => (hvalue j).trans (if_neg hj), ?_, ?_, ?_, ?_, ?_, fun hlow => ?_,
      fun hhigh n q q' hq hq' => ?_⟩
    · rw [hdev, Device.finish_mode, heq, ← hd]; exact Device.atMoment_mode ..
    · rw [hdev, Device.finish_st, heq, ← hd]; exact Device.atMoment_st ..
    · rw [hdev, Device.finish_vehicle, heq, ← hd]; exact Device.atMoment_vehicle ..
    · rw [hdev, Device.finish_lc, heq, ← hd]; exact Device.atMoment_lc ..
    · rw [hdev, Device.finish_places, Device.writeParam_places, hplaces]
    · rw [hdev, Device.finish_places, heq, ← hplaces]; exact if_neg (by omega)
    · rw [← hplaces] at hq
      rw [hdev, Device.finish_places] at hq'
      obtain ⟨hrecord, hevaluated⟩ := Device.writeParam_place hhigh hq hq'
      refine ⟨hrecord, ?_⟩
      subst hd
      rw [hdev]
      exact Device.evaluated_atMoment hevaluated

end Sys2Proof.Machine
end

section
/-! PROOF. O39: CAL_ZERO. -/

namespace Sys2Proof.Machine

/-! ## CAL_ZERO by its table (R124) -/

/-- The status that goes with what R124 decides. -/
def CalAnswer.status : CalAnswer → Status
  | .refuse st => st
  | .merge => .ok
  | .start => .ok

theorem Place.believedEmpty_iff (q : Params) (p : Place) :
    p.believedEmpty q = true ↔ p.reported = .empty ∧ ∃ load ∈ p.filter, load < q.occOff := by
  simp [Place.believedEmpty, Option.any_eq_true]

section
variable {d : Device} {p : Port} {f : Frame}

theorem calZeroAnswer_atMoment (m : Moment) : calZeroAnswer (d.atMoment m) p f = calZeroAnswer d p f := by cases m <;> rfl

/-- The table's rows in order, in the words of the rule. -/
theorem calZeroAnswer_eq : calZeroAnswer d p f = (d.calAnswer p f.forced f.selector.toNat).status := by
  unfold calZeroAnswer Device.calAnswer
  split
  · rfl
  · split
    · rfl
    · cases d.places[f.selector.toNat]? with
      | none => rfl
      | some q =>
        cases hcal : q.cal with
        | running run =>
          simp only [hcal]
          split <;> rfl
        | ended st =>
          simp only [hcal, ← Place.believedEmpty_iff, Bool.not_eq_true]
          split
          · rfl
          · split
            · rfl
            · exact (apply_ite CalAnswer.status (2 ≤ d.runningCals) (.refuse .busy) .start).symm

/-- A calibration starts in RUN alone, on a listed place with none running. -/
theorem Device.calAnswer_start {forced : Bool} {n : Nat} (h : d.calAnswer p forced n = .start) :
    d.mode = .run ∧ ∃ q, d.places[n]? = some q ∧ q.calRunning = false := by
  unfold Device.calAnswer at h
  by_cases hport : forced = true ∧ p = .b
  · rw [if_pos hport] at h; cases h
  · by_cases hmode : d.mode = .run
    · rw [if_neg hport, if_neg (not_not_intro hmode)] at h
      cases hq : d.places[n]? with
      | none => simp [hq] at h
      | some q =>
        refine ⟨hmode, q, rfl, ?_⟩
        cases hcal : q.cal with
        | running run =>
          simp only [hq, hcal] at h
          split at h <;> cases h
        | ended st => rw [Place.calRunning, hcal]
    · rw [if_neg hport, if_pos hmode] at h; cases h

/-- For a place with no calibration running the table starts one or refuses. -/
theorem Device.calAnswer_of_idle {forced : Bool} {n : Nat} {q : Place} (hq : d.places[n]? = some q) (hidle : q.calRunning = false) :
    d.calAnswer p forced n = .start ∨ ∃ st, st ≠ .ok ∧ d.calAnswer p forced n = .refuse st := by
  cases hcal : q.cal with
  | running run => simp [Place.calRunning, hcal] at hidle
  | ended st =>
    unfold Device.calAnswer
    simp only [hq, hcal]
    iterate 5
      split
      · exact .inr ⟨_, by decide, rfl⟩
    exact .inl rfl

/-- An accepted request on a place with no calibration running starts one. -/
theorem Device.calAnswer_start_of_ok {q : Place} (hok : calZeroAnswer d p f = .ok) (hq : d.places[f.selector.toNat]? = some q)
    (hidle : q.calRunning = false) : d.calAnswer p f.forced f.selector.toNat = .start := by
  rcases Device.calAnswer_of_idle (p := p) (forced := f.forced) hq hidle with hstart | ⟨st, hst, hrefused⟩
  · exact hstart
  · rw [calZeroAnswer_eq, hrefused] at hok
    exact absurd hok hst

/-- The blocks after a CAL_ZERO: a calibration begun where the table says so. -/
def Device.calZeroed (d : Device) (p : Port) (f : Frame) : Device :=
  if d.calAnswer p f.forced f.selector.toNat = .start then d.modifyPlace f.selector.toNat (Place.startCal d.env f.forced) else d

/-- The rule answers by the table, with the place's calibration after the request. -/
theorem calZeroRule_eq (p : Port) (f : Frame) (d : Device) (u : PortUnit) : calZeroRule p f d u = {
    status := calZeroAnswer d p f, data := (d.calZeroed p f).calData f.selector.toNat, dev := d.calZeroed p f, unit := u } := by
  rw [calZeroAnswer_eq]
  unfold calZeroRule Device.calZeroed
  cases hanswer : d.calAnswer p f.forced f.selector.toNat with
  | refuse st => simp [hanswer, Reply.only, CalAnswer.status]
  | merge => simp [hanswer, Reply.only, CalAnswer.status]
  | start => simp [hanswer, CalAnswer.status]

end

/-! ## The start of a calibration (R107, R126) -/

theorem Place.startCal_eq (e : Env) (forced : Bool) (p : Place) : p.startCal e forced = { p with
    pendingClass := none, count := 0
    cal := .running { forced := forced, samples := 0, sums := Vector.replicate 12 0, newZeros := none }
    verdict := (p.startCal e forced).verdict, marks := (p.startCal e forced).marks } := by
  unfold Place.startCal
  rw [Place.evalVerdict_eq]
  rfl

/-- Outside FROZEN a place whose calibration runs is not enabled (R108). -/
theorem Place.startCal_verdict {e : Env} (hm : e.mode ≠ .frozen) (forced : Bool) (q : Place) :
    (q.startCal e forced).verdict ≠ .enable := by
  unfold Place.startCal
  rw [Place.evalVerdict_verdict, if_neg hm, Env.verdictOf]
  split
  · decide
  · simp [Place.calRunning]

theorem Place.marked_evalVerdict (e : Env) (p : Place) (port : Port) {k : ChangeKind} (hk : k ≠ .restraint) :
    (p.evalVerdict e).marked port k = p.marked port k := by
  unfold Place.evalVerdict
  split
  · rfl
  · split
    · rfl
    · rw [Place.marked_mark, decide_eq_false hk, Bool.or_false]; rfl

/-- Settles O39: `calZeroRule_eq` gives the answer by the table, and a calibration starts only where none ran (`Device.calAnswer_start`). -/
theorem calZeroStartsMergesOrRefuses : Obligations.CalZeroStartsMergesOrRefuses := by
  intro p f s hopen
  generalize hd : s.dev.atMoment f.moment = d
  have hplaces : d.places = s.dev.places := by rw [← hd, Device.atMoment_places]
  have hmoment : calZeroAnswer d p f = calZeroAnswer s.dev p f := by rw [← hd]; exact calZeroAnswer_atMoment _
  have hrule := calZeroRule_eq p f d (s.ports.get p)
  obtain ⟨t, hexec, hdev, hanswered, hkept⟩ :=
    State.takeRequest_open s p f Request.calZero.code (calZeroRule p f) hopen (by rw [hd, hrule])
  rw [hd, hrule] at hdev hanswered hkept
  have hdata : t.dev.calData f.selector.toNat = (d.calZeroed p f).calData f.selector.toNat := by rw [hdev]; rfl
  refine ⟨t, hexec, hkept, by rw [hdata, ← hmoment]; exact hanswered, fun hkeeps => ?_, fun q hok hq hidle => ?_⟩
  · have hnotStart : d.calAnswer p f.forced f.selector.toNat ≠ .start := fun hstart => by
      obtain ⟨-, q, hq, hidle⟩ := Device.calAnswer_start hstart
      rcases hkeeps with hrefused | ⟨r, hr, hruns⟩
      · rw [← hmoment, calZeroAnswer_eq, hstart] at hrefused
        exact hrefused rfl
      · rw [hplaces, hr] at hq
        cases hq
        rw [hidle] at hruns; cases hruns
    rw [State.blocksKept, hdev, Device.calZeroed, if_neg hnotStart, ← hd]
    exact s.dev.kept_finish f.moment
  · have hq' : d.places[f.selector.toNat]? = some q := by rw [hplaces]; exact hq
    have hstart := Device.calAnswer_start_of_ok (hmoment.trans hok) hq' hidle
    have hrun : d.env.mode = .run := (Device.calAnswer_start hstart).1
    rw [Device.calZeroed, if_pos hstart] at hdev
    refine ⟨q.startCal d.env f.forced, ?_, by rw [Place.startCal_eq], by rw [Place.startCal_eq], by rw [Place.startCal_eq],
      by rw [Place.startCal_eq], Place.startCal_verdict (by rw [hrun]; decide) _ _, by rw [Place.startCal_eq],
      by rw [Place.startCal_eq], fun port => Place.marked_evalVerdict d.env _ port (by decide)⟩
    rw [hdev, Device.finish_places, Device.modifyPlace_places, ← hplaces]
    exact modify_eq_set _ _ q _ hq'

end Sys2Proof.Machine
end

section
/-! PROOF. O42: FREEZE. -/

namespace Sys2Proof.Machine

/-! ## A place that is frozen (R113, R114, R129) -/

section
variable (e0 e : Env) (p : Place)

/-- Outside RUN no place is eligible, so the evaluation leaves it in OFF (R147). -/
theorem Env.nextStage_outsideRun {e : Env} (hm : e.mode ≠ .run) (p : Place) : e.nextStage p = (.off, 0) := by
  have heligible : e.eligible p = false := by simp [Env.eligible, hm]
  rw [Env.nextStage, heligible]
  simp

theorem Env.counted_outsideRun {e : Env} (hm : e.mode ≠ .run) (p : Place) : e.counted p = false := by
  simp [Env.counted, Env.eligible, hm]

/-- The place as FREEZE hands it to RU: no pending class, a running calibration ended ABORTED_FROZEN. -/
def Place.frozenOf : Place := p.dropPending.abortCal e .abortedFrozen

theorem Place.freeze_frozenOf : p.freeze e0 e = (p.frozenOf e).remind e0 p e := rfl

theorem Place.frozenOf_idle {p : Place} (h : p.calRunning = false) : p.frozenOf e = p.dropPending :=
  if_neg (by rw [show p.dropPending.calRunning = p.calRunning from rfl, h]; decide)

theorem Place.frozenOf_running {p : Place} (h : p.calRunning = true) :
    p.frozenOf e = (p.dropPending.endCal e .abortedFrozen).markReminder e p.dropPending e := if_pos h

variable {e}

/-- In FROZEN the end of a calibration judges nothing (R107, R113). -/
theorem Place.endCal_inFrozen (hm : e.mode = .frozen) (st : CalEnd) : p.endCal e st = { p with
    cal := .ended st, nextTrim := (p.endCal e st).nextTrim, trimDue := false, stage := .off, timer := 0
    marks := (p.endCal e st).marks } := by
  have hnext := Env.nextStage_outsideRun (e := e) (by rw [hm]; decide)
  unfold Place.endCal Place.toStage
  simp only [hnext, (Place.frozen_evaluations e _ hm).1, (Place.frozen_evaluations e _ hm).2.1]
  rfl

/-- What FREEZE makes of a place. -/
theorem Place.freeze_eq (hm : e.mode = .frozen) : p.freeze e0 e = { p with
    pendingClass := none, count := 0, cal := if p.calRunning then .ended .abortedFrozen else p.cal
    nextTrim := (p.freeze e0 e).nextTrim, trimDue := (p.freeze e0 e).trimDue, stage := .off, timer := 0
    marks := (p.freeze e0 e).marks } := by
  have hnext := Env.nextStage_outsideRun (e := e) (by rw [hm]; decide)
  rw [Place.freeze_frozenOf, Place.remind_eq, Place.toStage, hnext]
  cases hrun : p.calRunning with
  | false => rw [Place.frozenOf_idle e hrun]; rfl
  | true => rw [Place.frozenOf_running e hrun, Place.markReminder_eq, Place.endCal_inFrozen _ hm]; rfl

theorem Place.freeze_calRunning (hm : e.mode = .frozen) : (p.freeze e0 e).calRunning = false := by
  rw [Place.freeze_eq e0 p hm]
  cases hrun : p.calRunning with
  | false => simpa [Place.calRunning] using hrun
  | true => rfl

/-- A calibration that FREEZE ends sets CAL (R129, R132). -/
theorem Place.freeze_marked_cal {p : Place} (h : p.calRunning = true) (port : Port) : (p.freeze e0 e).marked port .cal = true := by
  rw [Place.freeze_frozenOf, Place.frozenOf_running e h]
  exact Place.marksGrow_remind _ e0 p e port _ (Place.marksGrow_markReminder _ e p.dropPending e port _ (Place.marked_endCal e _ _ port))

/-- In stage OFF nothing of the reminder moves before RU evaluates the place. -/
theorem Place.frozenOf_keepsReminder {p : Place} (hm : e.mode = .frozen) (hoff : p.stage = .off) : p.keepsReminder (p.frozenOf e) := by
  cases hrun : p.calRunning with
  | false => rw [Place.frozenOf_idle e hrun]; exact fun _ => rfl
  | true =>
    have hunmarked : p.frozenOf e = p.dropPending.endCal e .abortedFrozen := by
      rw [Place.frozenOf_running e hrun, Place.markReminder, if_neg]
      have hcounted := Env.counted_outsideRun (e := e) (by rw [hm]; decide)
      rw [hcounted, hcounted, Place.endCal_inFrozen _ hm]
      simpa [Place.dropPending] using hoff.symm
    rw [hunmarked]
    exact Place.keepsReminder_endCal e _ p.dropPending

end

/-- FREEZE evaluates every place's stage: it is OFF, and REMINDER is set where that moves the reminder (R114, R151, R154). -/
theorem Place.freeze_evaluated (d e : Device) (p : Place) (hm : e.mode = .frozen) : d.evaluated e p (p.freeze d.env e.env) := by
  have hframe := Place.freeze_eq d.env p (e := e.env) hm
  refine ⟨?_, fun port => ?_⟩
  · rw [← e.nextStage_eq, Env.nextStage_outsideRun (by rw [show e.env.mode = .frozen from hm]; decide), hframe]
  · by_cases hoff : p.stage = .off
    · exact Place.marked_markReminder d e (p := (p.frozenOf e.env).toStage e.env) (Place.frozenOf_keepsReminder hm hoff) port
    · have hmoved : (p.freeze d.env e.env).stage ≠ p.stage := by rw [hframe]; exact fun h => hoff h.symm
      have hstaged : ((p.frozenOf e.env).toStage e.env).stage ≠ p.stage := by
        rwa [Place.freeze_frozenOf, Place.remind, Place.markReminder_stage] at hmoved
      rw [decide_eq_true (show d.reminderMoved e p (p.freeze d.env e.env) from .inl hmoved), Bool.or_true, Place.freeze_frozenOf,
        Place.remind, Place.markReminder, if_pos (.inl hstaged), Place.marked_mark, decide_eq_true rfl, Bool.or_true]

/-! ## FREEZE by its table (R112) -/

theorem freezeRule_eq (p : Port) (d : Device) (u : PortUnit) : freezeRule p d u = {
    status := if p = .b then .notPermitted else .ok, data := d.generationWord, unit := u
    dev := if p = .b ∨ d.mode = .frozen then d else d.freeze } := by
  unfold freezeRule
  cases p with
  | b => simp [Reply.only]
  | a =>
    by_cases hm : d.mode = .frozen
    · simp [hm, Reply.only]
    · simp [hm]

theorem Device.freeze_places (d : Device) : d.freeze.places = d.places.map (Place.freeze d.env { d with mode := .frozen }.env) := rfl

theorem Place.calRunning_of_storing {p : Place} (h : p.storing = true) : p.calRunning = true := by
  unfold Place.storing at h
  unfold Place.calRunning
  split at h
  · rfl
  · cases h

/-- No CAL_STORE waits after a FREEZE (R129). -/
theorem Device.freeze_noStore (d : Device) {r : LinkRequest} (hr : r ∈ d.freeze.ss.waiting) (seat : Seat) (zeros : Vector Word 12) :
    r.cmd ≠ .calStore seat zeros := by
  intro hcmd
  have hkept := (List.mem_filter.1 hr).2
  simp only [hcmd, List.any_eq_true, Bool.and_eq_true] at hkept
  obtain ⟨q, hq, -, hstoring⟩ := hkept
  obtain ⟨p, -, rfl⟩ := List.mem_map.1 hq
  have hidle := Place.freeze_calRunning d.env p (e := { d with mode := .frozen }.env) rfl
  rw [Place.calRunning_of_storing hstoring] at hidle
  cases hidle

theorem Device.globalWord_mode (d : Device) (p : Port) : (d.globalWord p 0).extractLsb' 0 2 = d.mode.code := by
  have hlow : ∀ (b : Bool) (c : BitVec 2), (0#13 ++ BitVec.ofBool b ++ c).extractLsb' 0 2 = c := by decide
  exact hlow d.startupDone d.mode.code

/-- Settles O42: `freezeRule_eq` gives the answer by the table, `Place.freeze_eq` and `Place.freeze_evaluated` what FREEZE makes of each
place. -/
theorem freezeHoldsClassesAndVerdicts : Obligations.FreezeHoldsClassesAndVerdicts := by
  intro p f s hopen
  generalize hd : s.dev.atMoment f.moment = d
  have hmode : d.mode = s.dev.mode := by rw [← hd, Device.atMoment_mode]
  have hplaces : d.places = s.dev.places := by rw [← hd, Device.atMoment_places]
  have hrule := freezeRule_eq p d (s.ports.get p)
  obtain ⟨t, hexec, hdev, hanswered, hkept⟩ :=
    State.takeRequest_open s p f Request.freeze.code (freezeRule p) hopen (by rw [hd, hrule])
  rw [hd, hrule] at hdev hanswered hkept
  have hgeneration : d.generationWord = s.dev.generation.setWidth 16 := by rw [← hd, Device.atMoment_generationWord]; rfl
  refine ⟨t, hexec, hkept, by rw [← hgeneration]; exact hanswered, fun hkeeps => ?_, fun hport hm => ?_⟩
  · rw [← hmode] at hkeeps
    rw [State.blocksKept, hdev, if_pos hkeeps, ← hd]
    exact s.dev.kept_finish f.moment
  · have hfreezes : ¬ (p = .b ∨ d.mode = .frozen) := by rw [hmode, hport]; simp [hm]
    rw [if_neg hfreezes] at hdev
    have hfrozen : t.dev.mode = .frozen := by rw [hdev]; rfl
    refine ⟨hfrozen, ?_, ?_, ?_, ?_, ?_, fun r hr seat zeros => ?_, fun n q q' hq hq' => ?_⟩
    · rw [Device.globalWord_mode, hfrozen]; rfl
    · rw [hdev, Device.finish_places, Device.freeze_places, List.length_map, hplaces]
    · rw [hdev, ← hd]; exact Device.atMoment_st ..
    · rw [hdev, ← hd]; exact congrArg (·.records) (Device.atMoment_ss ..)
    · rw [hdev, ← hd]; exact Device.atMoment_lc ..
    · rw [hdev] at hr; exact d.freeze_noStore hr seat zeros
    · rw [← hplaces] at hq
      rw [hdev, Device.finish_places, Device.freeze_places, List.getElem?_map, hq] at hq'
      obtain rfl := Option.some.inj hq'
      have henv : t.dev.env = { d with mode := .frozen }.env := by rw [hdev]; rfl
      have hevaluated := Place.freeze_evaluated d t.dev q hfrozen
      have hframe := Place.freeze_eq d.env q (e := t.dev.env) hfrozen
      rw [← henv]
      refine ⟨by rw [hframe], by rw [hframe], by rw [hframe], by rw [hframe], by rw [hframe], by rw [hframe], by rw [hframe],
        Place.freeze_calRunning _ q hfrozen, ?_, fun hrun => ⟨?_, Place.freeze_marked_cal _ hrun⟩, fun hrun => ?_,
        by rw [hframe], by rw [hframe], by rw [hframe], by rw [hframe]⟩
      · subst hd; exact Device.evaluated_atMoment hevaluated
      · rw [hframe]; exact if_pos hrun
      · rw [hframe]; exact if_neg (by rw [hrun]; decide)

end Sys2Proof.Machine
end

section
/-! PROOF. O43: UNFREEZE. -/

namespace Sys2Proof.Machine

/-! ## A place that is released (R119) -/

theorem Place.cannotJudge_iff (p : Place) : p.cannotJudge = true ↔
    p.total = none ∨ p.fresh = false ∨ p.hasFault .anchorPartial = true ∨ p.hasFault .anchorFault = true := by
  simp [Place.cannotJudge, or_assoc]

theorem Place.marked_evalVerdict_restraint {e : Env} {p : Place} (hchanged : (p.evalVerdict e).verdict ≠ p.verdict) (port : Port) :
    (p.evalVerdict e).marked port .restraint = true := by
  unfold Place.evalVerdict at hchanged ⊢
  split
  · rename_i hfrozen; rw [if_pos hfrozen] at hchanged; exact absurd rfl hchanged
  · rename_i hmode
    rw [if_neg hmode] at hchanged
    split
    · rename_i hsame; rw [if_pos hsame] at hchanged; exact absurd rfl hchanged
    · rw [Place.marked_mark, decide_eq_true rfl, Bool.or_true]

section
variable (e0 : Env) {e : Env} (p : Place)

/-- The place as CL releases it, before its verdict and its stage: no pending class, and row 1 of the table. -/
def Place.released (e : Env) (p : Place) : Place := p.dropPending.rowOneEvaluation e

theorem Place.unfreeze_released : p.unfreeze e0 e = ((p.released e).evalVerdict e).remind e0 p e := rfl

/-- Row 1 is asked of a released place unless it is being calibrated. -/
theorem Place.released_eq {p : Place} (hm : e.mode = .run) (hidle : p.calRunning = false) :
    p.released e = if p.cannotJudge = true then p.dropPending.persist e .unknown else p.dropPending := by
  have hclassifies : e.classifies p.dropPending = true := by
    simp [Env.classifies, hm, show p.dropPending.calRunning = false from hidle]
  rw [Place.released, Place.rowOneEvaluation, hclassifies, Bool.true_and]
  rfl

/-- A release leaves no pending class, and sets CLASS where it changes the reported one. -/
theorem Place.released_class {p : Place} (hm : e.mode = .run) (hidle : p.calRunning = false) :
    (p.released e).reported = (if p.cannotJudge = true then .unknown else p.reported) ∧
    (p.released e).pendingClass = none ∧ (p.released e).count = 0 ∧
    ((p.released e).reported ≠ p.reported → ∀ port : Port, (p.released e).marked port .cls = true) := by
  rw [Place.released_eq hm hidle]
  by_cases hjudged : p.cannotJudge = true
  · rw [if_pos hjudged, if_pos hjudged]
    by_cases hunknown : p.dropPending.reported = .unknown
    · rw [← hunknown, Place.persist_same]
      exact ⟨rfl, rfl, rfl, fun hne => absurd rfl hne⟩
    · rw [Place.persist_unknown hunknown]
      exact ⟨rfl, rfl, rfl, fun _ port => by rw [Place.marked_adopt, decide_eq_true rfl, Bool.or_true]⟩
  · rw [if_neg hjudged, if_neg hjudged]
    exact ⟨rfl, rfl, rfl, fun hne => absurd rfl hne⟩

theorem Place.unfreeze_class {p : Place} (hm : e.mode = .run) (hidle : p.calRunning = false) :
    (p.unfreeze e0 e).reported = (if p.cannotJudge = true then .unknown else p.reported) ∧
    (p.unfreeze e0 e).pendingClass = none ∧ (p.unfreeze e0 e).count = 0 ∧
    ((p.unfreeze e0 e).reported ≠ p.reported → ∀ port : Port, (p.unfreeze e0 e).marked port .cls = true) := by
  obtain ⟨hreported, hpending, hcount, hmarked⟩ := Place.released_class hm hidle
  simp only [Place.unfreeze_released, Place.remind_reported, Place.evalVerdict_reported, Place.remind_pendingClass,
    Place.evalVerdict_pendingClass, Place.remind_count, Place.evalVerdict_count]
  exact ⟨hreported, hpending, hcount, fun hne port =>
    Place.marksGrow_remind _ e0 p e port _ (Place.marksGrow_evalVerdict e _ port _ (hmarked hne port))⟩

/-- The verdict after a release is that of R108, with RESTRAINT set where it changed (R109). -/
theorem Place.unfreeze_verdict (hm : e.mode ≠ .frozen) :
    (p.unfreeze e0 e).verdict = e.verdictOf (p.unfreeze e0 e) ∧
    ((p.unfreeze e0 e).verdict ≠ p.verdict → ∀ port : Port, (p.unfreeze e0 e).marked port .restraint = true) := by
  have hheld : (p.released e).verdict = p.verdict := by rw [Place.released, Place.rowOneEvaluation_eq]; rfl
  rw [Place.unfreeze_released]
  constructor
  · exact Place.judgedBy_of_eq (Place.judged_evalVerdict e (p.released e)) (by simp) (by simp) (by simp) (by simp) (by simp) (by simp) hm
  · intro hne port
    rw [Place.remind_verdict, ← hheld] at hne
    exact Place.marksGrow_remind _ e0 p e port _ (Place.marked_evalVerdict_restraint hne port)

end

/-- UNFREEZE evaluates every place's stage, with the mark of R154 (R151). -/
theorem Place.unfreeze_evaluated (d e : Device) (p : Place) : d.evaluated e p (p.unfreeze d.env e.env) :=
  Place.remind_evaluated d e p _ (by simp [Place.dropPending]) (by simp [Place.dropPending])
    ((Place.keepsReminder_rowOneEvaluation (p := p.dropPending) e.env).trans (Place.marked_evalVerdict_reminder e.env _))

/-! ## UNFREEZE by its table (R118) -/

theorem Device.standing_iff (d : Device) :
    d.standing = true ↔ d.vehicle.speed = some 0 ∧ ∃ since ∈ d.vehicle.speedZero, since + 5000 ≤ d.time.now := by
  simp [Device.standing, Device.passed, Option.any_eq_true]

theorem unfreezeAnswer_atMoment (d : Device) (p : Port) (m : Moment) : unfreezeAnswer (d.atMoment m) p = unfreezeAnswer d p := by
  cases m <;> rfl

theorem unfreezeRule_eq (p : Port) (d : Device) (u : PortUnit) : unfreezeRule p d u = {
    status := unfreezeAnswer d p, data := d.generationWord, unit := u
    dev := if unfreezeAnswer d p = .ok then d.unfreeze else d } := by
  unfold unfreezeRule unfreezeAnswer
  simp only [← Device.standing_iff]
  cases p with
  | b => simp [Reply.only]
  | a =>
    by_cases hm : d.mode = .frozen
    · cases hstanding : d.standing <;> simp [hm, Reply.only]
    · simp [hm, Reply.only]

theorem Device.unfreeze_places (d : Device) : d.unfreeze.places = d.places.map (Place.unfreeze d.env { d with mode := .run }.env) := rfl

/-- Settles O43: `unfreezeRule_eq` gives the answer by the table, `Place.unfreeze_class`, `Place.unfreeze_verdict` and
`Place.unfreeze_evaluated` what UNFREEZE makes of each place. -/
theorem unfreezeReleasesAfterFiveSecondsAtRest : Obligations.UnfreezeReleasesAfterFiveSecondsAtRest := by
  intro p f s hopen
  generalize hd : s.dev.atMoment f.moment = d
  have hmoment : unfreezeAnswer d p = unfreezeAnswer s.dev p := by rw [← hd]; exact unfreezeAnswer_atMoment ..
  have hplaces : d.places = s.dev.places := by rw [← hd, Device.atMoment_places]
  have hgeneration : d.generationWord = s.dev.generation.setWidth 16 := by rw [← hd, Device.atMoment_generationWord]; rfl
  have hrule := unfreezeRule_eq p d (s.ports.get p)
  rw [hmoment] at hrule
  obtain ⟨t, hexec, hdev, hanswered, hkept⟩ :=
    State.takeRequest_open s p f Request.unfreeze.code (unfreezeRule p) hopen (by rw [hd, hrule])
  rw [hd, hrule] at hdev hanswered hkept
  refine ⟨t, hexec, hkept, by rw [← hgeneration]; exact hanswered, fun hrefused => ?_, fun hok => ?_⟩
  · rw [State.blocksKept, hdev, if_neg hrefused, ← hd]
    exact s.dev.kept_finish f.moment
  · rw [if_pos hok] at hdev
    have hrun : t.dev.mode = .run := by rw [hdev]; rfl
    refine ⟨hrun, ?_, ?_, ?_, fun n q q' hq hq' hidle => ?_⟩
    · rw [hdev, Device.finish_places, Device.unfreeze_places, List.length_map, hplaces]
    · rw [hdev, ← hd]; exact Device.atMoment_st ..
    · rw [hdev, ← hd]; exact Device.atMoment_vehicle ..
    · rw [← hplaces] at hq
      rw [hdev, Device.finish_places, Device.unfreeze_places, List.getElem?_map, hq] at hq'
      obtain rfl := Option.some.inj hq'
      have henv : t.dev.env = { d with mode := .run }.env := by rw [hdev]; rfl
      rw [← henv, ← if_congr q.cannotJudge_iff rfl rfl]
      obtain ⟨hreported, hpending, hcount, hcls⟩ := Place.unfreeze_class d.env (e := t.dev.env) hrun hidle
      have hjudges : t.dev.env.mode ≠ .frozen := by rw [show t.dev.env.mode = .run from hrun]; decide
      obtain ⟨hverdict, hrestraint⟩ := Place.unfreeze_verdict d.env q hjudges
      have hid : (q.unfreeze d.env t.dev.env).id = q.id := by simp [Place.unfreeze, Place.dropPending]
      have hevaluated := Place.unfreeze_evaluated d t.dev q
      subst hd
      exact ⟨hid, hpending, hcount, hreported, hverdict, hcls, hrestraint, Device.evaluated_atMoment hevaluated⟩

end Sys2Proof.Machine
end

section
/-! PROOF. At most two calibrations run after every step, each within its record's ranges (O54). -/

namespace Sys2Proof.Machine

/-! ## The calibration of one place, through the operations outside an exchange -/

section
variable (e0 e : Env) (p : Place)

theorem Place.tick_cal (d : Device) : (p.tick d.env).cal = p.cal := by rw [Place.tick_eq]

theorem Place.tripFlag_cal (before after : Bool) : (p.tripFlag before after).cal = p.cal := by
  unfold Place.tripFlag; repeat' split
  all_goals rfl

theorem Place.loseFreshness_cal : (p.loseFreshness e).cal = p.cal := by simp [Place.loseFreshness]

theorem Place.writePolicy_cal (v : Word) : (p.writePolicy e v).cal = p.cal := by rw [Place.writePolicy_eq]

theorem Place.acceptedMap_cal : (p.acceptedMap e0 e).cal = p.cal := by
  unfold Place.acceptedMap; split <;> simp

theorem Place.modeChanged_cal : (p.modeChanged e0 e).cal = p.cal := by rw [Place.agrees_modeChanged e0 e p]

theorem Place.unfreeze_cal : (p.unfreeze e0 e).cal = p.cal := by simp [Place.unfreeze]

/-- FREEZE ends a running calibration and starts none (R129). -/
theorem Place.calibratesAs_freeze : p.calibratesAs (p.freeze e0 e) := by
  have habort : p.dropPending.calibratesAs (p.frozenOf e) := (calibration_work e).abortCal _ _
  exact habort.andThen (Place.calibratesAs_of_eq (Place.remind_cal _ _ _ _))

end

/-- A calibration as it starts has no sample (R126). -/
theorem CalRun.law_start (forced : Bool) :
    ({ forced := forced, samples := 0, sums := Vector.replicate 12 0, newZeros := none } : CalRun).law :=
  ⟨Nat.zero_le _, fun i => by simp, by simp⟩

/-! ## The calibrations of the list -/

/-- From `d` to `e` the same places stand in the list; no calibration starts, and each running one stays within its ranges. -/
abbrev Device.Calibrates (d e : Device) : Prop := List.Forall₂ Place.calibratesAs d.places e.places

/-- What joins the list runs no calibration, so a rebuild leaves no more running than there were (R45). -/
theorem Device.runningCals_rebuild (d : Device) : d.rebuild.runningCals ≤ d.runningCals := by
  have hids : (d.rebuild.places.map Place.id).Nodup := by
    rw [d.rebuild_ids]
    exact d.newList_ascending.imp fun hlt hid => by rw [hid] at hlt; exact lt_irrefl _ hlt
  have hnodup : ((d.rebuild.places.filter Place.calRunning).map Place.id).Nodup :=
    hids.sublist (List.filter_sublist.map Place.id)
  have hsubset : (d.rebuild.places.filter Place.calRunning).map Place.id ⊆ (d.places.filter Place.calRunning).map Place.id := by
    refine List.forall_mem_map.2 fun q hq => ?_
    obtain ⟨hmem, hruns⟩ := List.mem_filter.1 hq
    obtain ⟨p, hp, hagrees⟩ := d.mem_rebuild hmem
    rw [hagrees.calRunning] at hruns
    rw [hagrees.id_eq]
    rcases hp with hp | hnew
    · exact List.mem_map_of_mem (List.mem_filter.2 ⟨hp, hruns⟩)
    · rw [hnew, d.newPlace_calRunning] at hruns; cases hruns
  have hlength := (hnodup.subperm hsubset).length_le
  rw [List.length_map, List.length_map, ← List.countP_eq_length_filter, ← List.countP_eq_length_filter] at hlength
  exact hlength

/-- Where no calibration starts, no more run than before. -/
theorem countP_calRunning_le {ps qs : List Place} (h : List.Forall₂ Place.calibratesAs ps qs) :
    qs.countP Place.calRunning ≤ ps.countP Place.calRunning := by
  induction h with
  | nil => exact le_rfl
  | @cons p q _ _ hpq _ ih =>
    obtain ⟨hstarts, -⟩ := hpq
    rw [List.countP_cons, List.countP_cons]
    cases hq : q.calRunning with
    | false => simp only [Bool.false_eq_true, if_false]; omega
    | true => simp only [hstarts hq, if_true]; omega

section
variable {d w e : Device}

theorem Device.Calibrates.calLaw (h : d.Calibrates e) (hd : d.calLaw) : e.calLaw := by
  obtain ⟨hcount, hranges⟩ := hd
  refine ⟨(countP_calRunning_le h).trans hcount, fun q hq => ?_⟩
  obtain ⟨p, hp, -, hkeeps⟩ := forall₂_mem_right h hq
  exact hkeeps (hranges p hp)

/-- Blocks other than the places may have changed. -/
theorem Device.calibrates_rest (h : e.places = d.places) : d.Calibrates e := by
  rw [Device.Calibrates, h]
  exact List.forall₂_same.2 fun _ _ => Place.calibratesAs_of_eq rfl

/-- The work of ST, SS, CU and the places starts no calibration; what comes before it may have changed other blocks. -/
theorem Device.calibrates_of_goes (h : w.Goes Place.calibratesAs e) (hplaces : w.places = d.places) : d.Calibrates e := by
  rw [Device.Calibrates, ← hplaces]
  exact h.places

theorem Device.calibrates_map {f : Place → Place} (h : e.places = d.places.map f) (hf : ∀ p : Place, p.calibratesAs (f p)) :
    d.Calibrates e := by
  rw [Device.Calibrates, h]
  exact List.forall₂_map_right_iff.2 (List.forall₂_same.2 fun p _ => hf p)

theorem Device.calibrates_modifyPlace (n : Nat) {f : Place → Place} (hf : ∀ p, (f p).cal = p.cal) :
    d.Calibrates (d.modifyPlace n f) := by
  have hmodify : ∀ (n : Nat) (ps : List Place), List.Forall₂ Place.calibratesAs ps (ps.modify n f) := by
    intro n ps
    induction ps generalizing n with
    | nil => simp
    | cons p ps ih =>
      cases n with
      | zero =>
        exact .cons (Place.calibratesAs_of_eq (hf p)) (List.forall₂_same.2 fun _ _ => Place.calibratesAs_of_eq rfl)
      | succ n => exact .cons (Place.calibratesAs_of_eq rfl) (ih n)
  exact hmodify n d.places

theorem Device.calibrates_completeStartup (d : Device) : d.Calibrates d.completeStartup := by
  by_cases hm : d.mode = .startUp
  · exact Device.calibrates_map (Device.completeStartup_inStartUp hm).1 fun p => Place.calibratesAs_of_eq (p.modeChanged_cal _ _)
  · exact Device.calibrates_rest (Device.completeStartup_otherwise hm)

theorem Device.calLaw_rebuild (h : d.calLaw) : d.rebuild.calLaw := by
  obtain ⟨hcount, hranges⟩ := h
  refine ⟨d.runningCals_rebuild.trans hcount, fun q hq => ?_⟩
  obtain ⟨p, hp, hagrees⟩ := d.mem_rebuild hq
  have hcal : q.cal = p.cal := by rw [hagrees]
  rw [hcal]
  rcases hp with hp | hnew
  · exact hranges p hp
  · rw [hnew]; simp [Device.newPlace, freshPlace, Calibration.record]

/-- An event that keeps the law, and then rebuilds the list. -/
theorem Device.Relists.calLaw (h : d.Relists w e) (hw : w.calLaw) : e.calLaw := by
  have hlisted := Device.calLaw_rebuild hw
  rcases h.ends with rfl | rfl
  · exact hlisted
  · exact (Device.calibrates_completeStartup _).calLaw hlisted

/-! ## The start of a calibration (R124, R126) -/

/-- A calibration starts only where fewer than two run. -/
theorem Device.calAnswer_start_free {p : Port} {forced : Bool} {n : Nat} (h : d.calAnswer p forced n = .start) : d.runningCals < 2 := by
  by_contra hbusy
  have hbusy : 2 ≤ d.runningCals := not_lt.1 hbusy
  unfold Device.calAnswer at h
  simp only [hbusy, if_true] at h
  repeat' split at h
  all_goals cases h

theorem Device.calLaw_startCal {p : Port} {forced : Bool} {n : Nat} (h : d.calLaw) (hstart : d.calAnswer p forced n = .start) :
    (d.modifyPlace n (Place.startCal d.env forced)).calLaw := by
  obtain ⟨-, hranges⟩ := h
  have hfree := Device.calAnswer_start_free hstart
  obtain ⟨-, q, hq, -⟩ := Device.calAnswer_start hstart
  have hplaces : (d.modifyPlace n (Place.startCal d.env forced)).places = d.places.set n (q.startCal d.env forced) :=
    modify_eq_set _ _ q _ hq
  constructor
  · obtain ⟨hn, -⟩ := List.getElem?_eq_some_iff.1 hq
    rw [Device.runningCals, hplaces, List.countP_set hn]
    unfold Device.runningCals at hfree
    split <;> split <;> omega
  · rw [hplaces]
    intro r hr
    rcases List.mem_or_eq_of_mem_set hr with hr | rfl
    · exact hranges r hr
    · rw [Place.startCal_eq]
      intro run hrun
      cases hrun
      exact CalRun.law_start forced

/-! ## The events of the link -/

theorem Device.calLaw_handed (h : d.calLaw) (x : Exchange) (o : LinkOutcome) : (d.handed x o).calLaw := by
  have hdeliver : (d.deliver x o).calLaw := (Device.calibrates_of_goes (Device.goes_deliver (calibration_work _) x o) rfl).calLaw h
  unfold Device.handed
  split
  · exact (Device.calibrates_of_goes (Device.goes_lateExpiry (calibration_work _) x.station) rfl).calLaw hdeliver
  · exact hdeliver

theorem Device.calLaw_endExchange (h : d.calLaw) (x : Exchange) (o : LinkOutcome) : (d.endExchange x o).calLaw := by
  have hheard : (d.heard x o).calLaw := (Device.calibrates_rest (Device.heard_places x o)).calLaw h
  exact (Device.relists_endExchange x o).calLaw (Device.calLaw_handed hheard x o)

theorem Device.calibrates_launchRetry (d : Device) (x : Exchange) : d.Calibrates (d.launchRetry x) :=
  Device.calibrates_rest (by rw [Device.launchRetry_eq])

theorem Device.calLaw_attemptFailed (h : d.calLaw) (x : Exchange) (k : FailKind) : (d.attemptFailed x k).calLaw := by
  unfold Device.attemptFailed
  split
  · unfold Device.retry; simp only; split
    · exact h
    · exact (d.calibrates_launchRetry _).calLaw h
  · exact Device.calLaw_endExchange h x _

theorem Device.calLaw_takeChar (h : d.calLaw) (x : Exchange) (ch : RxChar) : (d.takeChar x ch).calLaw := by
  unfold Device.takeChar; simp only; split
  · exact h
  · exact h
  · exact Device.calLaw_attemptFailed h _ _
  · exact Device.calLaw_endExchange h x _

/-! ## The other events of the blocks -/

theorem Device.calibrates_probeMark (d : Device) (t : Nat) : d.Calibrates (d.probeMark t) := by
  unfold Device.probeMark; simp only
  repeat' split
  · exact Device.calibrates_rest rfl
  · exact Device.calibrates_of_goes (Device.goes_askProbe (calibration_work _) _) rfl
  · exact Device.calibrates_rest rfl

theorem Device.calibrates_reProbeMark (d : Device) (c : Code) (t : Nat) : d.Calibrates (d.reProbeMark c t) := by
  unfold Device.reProbeMark; simp only; split <;> exact Device.calibrates_rest rfl

theorem Device.calibrates_writeParam (d : Device) (id v : Nat) : d.Calibrates (d.writeParam id v) := by
  unfold Device.writeParam; simp only; split
  · exact Device.calibrates_map rfl fun p => Place.calibratesAs_of_eq (p.remind_cal _ _ _)
  · exact Device.calibrates_rest rfl

theorem Device.calibrates_lapse (d : Device) : d.Calibrates d.lapse :=
  Device.calibrates_map (Device.setGlobal_places _ _ _) fun p => Place.calibratesAs_of_eq (p.remind_cal _ _ _)

theorem Device.calibrates_supply (d : Device) (ignition : Bool) (speed : Nat) : d.Calibrates (d.supply ignition speed) :=
  Device.calibrates_map (Device.setGlobal_places _ _ _) fun p =>
    Place.calibratesAs_of_eq ((Place.remind_cal _ _ _ _).trans (p.tripFlag_cal _ _))

end

/-- A table read takes marks away and nothing else (R166). -/
theorem clearRun_calibratesAs (port : Port) (start count n : Nat) (ps : List Place) :
    List.Forall₂ Place.calibratesAs ps (clearRun port start count n ps) := by
  induction ps generalizing n with
  | nil => exact .nil
  | cons p ps ih =>
    refine .cons (Place.calibratesAs_of_eq ?_) (ih (n + 1))
    split <;> rfl

/-! ## Every event -/

theorem Device.Event.calLaw {d e : Device} {c : Instr} (h : d.Event c e) (hd : d.calLaw) : e.calLaw := by
  have hmoment : ∀ m, (d.atMoment m).calLaw := fun m => (Device.calibrates_rest (d.atMoment_places m)).calLaw hd
  have hm : ∀ {m : Moment} {e : Device}, (d.atMoment m).Calibrates e → e.calLaw := fun hr => hr.calLaw (hmoment _)
  cases h with
  | calZero p f hstart => exact Device.calLaw_startCal (hmoment _) hstart
  | char m ch x => exact Device.calLaw_takeChar (hmoment m) x ch
  | attemptFailed c m x k => exact Device.calLaw_attemptFailed (hmoment m) x k
  | silentExpiry c t => exact (Device.relists_toAbsent c).calLaw hd
  | startupLimit => exact d.calibrates_completeStartup.calLaw hd
  | quiet | settle | unknownExpiry | recoveryEnd => exact hd
  | frameSent m | noEffect c m => exact hmoment m
  | globalFaultsRead p f | globalFaultsClear p f | setAttn p f => exact hmoment f.moment
  | grant m choice => cases choice <;> exact hmoment m
  | heldRetry m x => exact hm (Device.calibrates_launchRetry _ x)
  | selfRelax c t =>
    split
    · exact (Device.calibrates_of_goes (Device.goes_scanFailed (calibration_work _) c) rfl).calLaw hd
    · exact hd
  | tick => exact (Device.calibrates_map rfl fun p => Place.calibratesAs_of_eq (p.tick_cal d)).calLaw hd
  | freshnessLoss n p => exact (Device.calibrates_modifyPlace n fun p => p.loseFreshness_cal _).calLaw hd
  | nodeSilent n p => exact (Device.calibrates_modifyPlace n fun p => p.setFault_cal _ _).calLaw hd
  | probeMark t => exact (d.calibrates_probeMark t).calLaw hd
  | reProbeMark c t => exact (d.calibrates_reProbeMark c t).calLaw hd
  | lapse t => exact d.calibrates_lapse.calLaw hd
  | lampTimer n p | chimeTimer n p => exact (Device.calibrates_modifyPlace n fun p => p.remind_cal _ _ _).calLaw hd
  | trimMark n p t => exact Device.Calibrates.calLaw (Device.calibrates_modifyPlace n fun _ => rfl) hd
  | placeStatus p f | placeFaultsRead p f | placeFaultsClear p f => exact hm (Device.calibrates_modifyPlace _ fun _ => rfl)
  | tableRead p f => exact hm (m := f.moment) (clearRun_calibratesAs p _ _ 0 _)
  | setParam p f row => exact hm (Device.calibrates_writeParam _ _ _)
  | setPolicy p f q => exact hm (Device.calibrates_modifyPlace _ fun q => q.writePolicy_cal _ _)
  | vehicleState f => exact hm (Device.calibrates_supply _ _ _)
  | linkTest p f c => exact hm (m := f.moment) (Device.calibrates_of_goes (Device.goes_takeUpTest (calibration_work _) c) rfl)
  | acceptMap f => exact hm (Device.calibrates_map rfl fun q => Place.calibratesAs_of_eq (q.acceptedMap_cal _ _))
  | freeze f => exact hm (Device.calibrates_map rfl fun q => q.calibratesAs_freeze _ _)
  | unfreeze f => exact hm (Device.calibrates_map rfl fun q => Place.calibratesAs_of_eq (q.unfreeze_cal _ _))

/-- Settles O54: no place is listed at reset, and of the events CAL_ZERO alone starts a calibration, where fewer than two run
(`Device.calAnswer_start_free`). The list law is not needed: a rebuilt list holds no place twice, whatever stood before it
(`Device.runningCals_rebuild`). -/
theorem everyStepKeepsTheCalibrationLaw : Obligations.EveryStepKeepsTheCalibrationLaw := by
  intro s t _ hs h
  have hreset : Device.reset.calLaw := ⟨Nat.zero_le _, fun _ hp => nomatch hp⟩
  exact Device.law_kept_by_step (P := Device.calLaw) hreset (fun _ hd => hd) (fun _ _ _ hd he => he.calLaw hd) hs h

end Sys2Proof.Machine
end

section
/-! SUPPORT. The two events of the vehicle record, a lapse and an accepted VEHICLE_STATE (R138 to R140): the global fault that goes with
them, and every place as RU evaluates it (R144, R151). -/

namespace Sys2Proof.Machine

/-! ## The global fault (R174) -/

section
variable (d : Device) (k : GlobalFault) (port : Port)

@[simp] theorem Device.setGlobal_env (on : Bool) : (d.setGlobal k on).env = d.env := by
  unfold Device.setGlobal
  repeat' split
  all_goals rfl

theorem Device.setGlobal_enable (on : Bool) : ((d.setGlobal k on).report.get port).enable = (d.report.get port).enable := by
  unfold Device.setGlobal
  repeat' split
  · rfl
  · rw [Both.get_map]
  · rfl

variable {d k} in
/-- A global fault that rises enters a port's sticky set and sets its fault mark. -/
theorem Device.setGlobal_rises (h : d.live.getLsbD k.bit = false) :
    ((d.setGlobal k true).report.get port).stickyGlobal.getLsbD k.bit = true ∧
    ((d.setGlobal k true).report.get port).globalMark = true := by
  unfold Device.setGlobal
  rw [if_pos rfl, h, if_neg (by decide), Both.get_map]
  exact ⟨by simp [withBit_bit, GlobalFault.bit_lt], rfl⟩

@[simp] theorem Device.finish_stickyGlobal : (d.finish.report.get port).stickyGlobal = (d.report.get port).stickyGlobal := by
  cases port <;> rfl
@[simp] theorem Device.finish_globalMark : (d.finish.report.get port).globalMark = (d.report.get port).globalMark := by
  cases port <;> rfl
@[simp] theorem Device.finish_enable : (d.finish.report.get port).enable = (d.report.get port).enable := by
  cases port <;> rfl

end

/-! ## Every place evaluated (R144, R151, R154) -/

theorem Place.tripFlag_eq (before after : Bool) (p : Place) :
    p.tripFlag before after = { p with fastened := (p.tripFlag before after).fastened } := by
  unfold Place.tripFlag
  repeat' split
  all_goals rfl

/-- The trip end clears the flag, an ignition ON sets it where the buckle reads LATCHED, and else it stays (R144). -/
theorem Place.tripFlag_fastened (before after : Bool) (p : Place) :
    (p.tripFlag before after).fastened =
      (if before = true ∧ after = false then false else if before = false ∧ after = true ∧ p.buckle = .latched then true else p.fastened) := by
  cases before <;> cases after
  case false.true => by_cases hlatched : p.buckle = .latched <;> simp [Place.tripFlag, Place.beltFastened, hlatched]
  all_goals simp [Place.tripFlag]

section
variable (d : Device)

theorem Device.lapse_places : d.lapse.places = d.places.map (fun p => p.remind d.env p d.lapse.env) := by
  simp only [Device.lapse, Device.setGlobal_places, Device.setGlobal_env]
  rfl

theorem Device.supply_places (ignition : Bool) (speed : Nat) : (d.supply ignition speed).places =
    d.places.map (fun p => (p.tripFlag d.vehicle.ignition ignition).remind d.env p (d.supply ignition speed).env) := by
  simp only [Device.supply, Device.setGlobal_places, Device.setGlobal_env]
  rfl

variable {d} {e : Device}

/-- Where an event changes the fastened flag of every place at most, and RU then evaluates it, the place after it is that of R144 and
R151. -/
theorem Device.place_of_remindAll {flag : Place → Place} (hflag : ∀ p : Place, flag p = { p with fastened := (flag p).fastened })
    (hplaces : e.places = d.places.map (fun p => (flag p).remind d.env p e.env)) {n : Nat} {p q : Place}
    (hp : d.places[n]? = some p) (hq : e.places[n]? = some q) :
    q = { p with fastened := (flag p).fastened, stage := q.stage, timer := q.timer, marks := q.marks } ∧ d.evaluated e p q := by
  rw [hplaces, List.getElem?_map, hp] at hq
  obtain rfl := Option.some.inj hq
  have hmarks : (flag p).marks = p.marks := by rw [hflag p]
  refine ⟨by dsimp only; rw [Place.remind_eq, hflag p], Place.remind_evaluated d e p _ ?_ ?_ fun port => ?_⟩
  · rw [hflag p]
  · rw [hflag p]
  · rw [Place.marked, hmarks, Place.marked]

end

end Sys2Proof.Machine
end

section
/-! SUPPORT. The law of the reminder stage through every event (R143, R147): an event leaves what the law reads of a place, or RU evaluates
the place anew (R151). -/

namespace Sys2Proof.Machine

/-! ## One place -/

/-- What the law of the reminder stage reads of a place. -/
def Place.reminding (p : Place) : Stage × Nat × Class × Bool × Bool × Reading :=
  (p.stage, p.timer, p.reported, p.policy.reminderEnable, p.policy.childReminder, p.buckle)

/-- Two surroundings in which the same places are eligible: one mode, one ignition (R145). -/
structure Env.RemindsAs (e0 e : Env) : Prop where
  mode     : e.mode = e0.mode
  ignition : e.vehicle.ignition = e0.vehicle.ignition

section
variable {e0 e : Env} {p q : Place}

theorem Place.remindedBy_of_reminding (he : e0.RemindsAs e) (h : q.reminding = p.reminding) (hp : p.remindedBy e0) : q.remindedBy e := by
  simp only [Place.reminding, Prod.mk.injEq] at h
  obtain ⟨hstage, htimer, hreported, henable, hchild, hbuckle⟩ := h
  simp only [Place.remindedBy, Env.eligible, Place.remindedClass, Place.beltFastened, he.mode, he.ignition, hstage, htimer, hreported,
    henable, hchild, hbuckle]
  exact hp

theorem Place.remindedBy_of_off (hstage : p.stage = .off) (htimer : p.timer = 0) : p.remindedBy e :=
  ⟨fun h => absurd hstage h, fun _ => htimer⟩

/-- RU leaves a place as the law has it, whatever the class, the buckle and the surroundings have become. -/
theorem Place.reminded_remind (e0 e : Env) (before : Place) (h : p.timed) : (p.remind e0 before e).remindedBy e :=
  Place.reminded_markReminder _ e0 before (Place.reminded_toStage e p h)

end

section
variable (e0 e : Env) (p : Place)

@[simp] theorem Place.mark_reminding (k : ChangeKind) : (p.mark k).reminding = p.reminding := rfl
@[simp] theorem Place.setFault_reminding (k : FaultKind) (on : Bool) : (p.setFault k on).reminding = p.reminding := by
  rw [Place.setFault_eq]; rfl
@[simp] theorem Place.evalVerdict_reminding : (p.evalVerdict e).reminding = p.reminding := by rw [Place.evalVerdict_eq]; rfl
theorem Place.startCal_reminding (forced : Bool) : (p.startCal e forced).reminding = p.reminding := by rw [Place.startCal_eq]; rfl
theorem Place.acceptedMap_reminding : (p.acceptedMap e0 e).reminding = p.reminding := by
  unfold Place.acceptedMap
  split <;> simp

variable {p} (h : p.timed)
include h

theorem Place.reminded_loseFreshness : (p.loseFreshness e).remindedBy e := by
  rw [Place.loseFreshness_eq]
  exact Place.reminded_remind e e p (Place.timed_of_eq h (by simp [Place.stale]) (by simp [Place.stale]))

theorem Place.reminded_modeChanged : (p.modeChanged e0 e).remindedBy e :=
  Place.reminded_remind e0 e p (Place.timed_of_eq h (by simp) (by simp))

theorem Place.reminded_unfreeze : (p.unfreeze e0 e).remindedBy e :=
  Place.reminded_remind e0 e p (Place.timed_of_eq h (by simp) (by simp))

/-- A vehicle state taken: the fastened flag, then the stage (R144, R151). -/
theorem Place.reminded_supplied (before after : Bool) : ((p.tripFlag before after).remind e0 p e).remindedBy e := by
  refine Place.reminded_remind e0 e p (Place.timed_of_eq h ?_ ?_)
  all_goals rw [Place.tripFlag_eq]

end

/-- The instant counts the timer in LAMP and CHIME alone, the stages that have one (R149, R150). -/
theorem Place.reminded_tick (d : Device) {e : Env} (he : d.env.RemindsAs e) {p : Place} (h : p.remindedBy d.env) :
    (p.tick d.env).remindedBy e := by
  obtain ⟨hstaged, htimed⟩ := Place.remindedBy_of_reminding (q := p) he rfl h
  rw [Place.tick_eq]
  refine ⟨hstaged, fun hstage => ?_⟩
  refine (if_neg ?_).trans (htimed hstage)
  rintro ⟨-, -, ⟨hlamp, -⟩ | ⟨hchime, -⟩⟩
  · simp [show p.stage = .lamp from hlamp] at hstage
  · simp [show p.stage = .chime from hchime] at hstage

/-- Outside RUN, where FREEZE leaves the part, every place is in OFF (R114). -/
theorem Place.reminded_freeze (e0 : Env) {e : Env} (hm : e.mode = .frozen) (p : Place) : (p.freeze e0 e).remindedBy e := by
  have hfreeze := Place.freeze_eq e0 p hm
  exact Place.remindedBy_of_off (by rw [hfreeze]) (by rw [hfreeze])

/-- A policy written: the stage is evaluated where a reminder field changed (R56). -/
theorem Place.reminded_writePolicy (e : Env) (v : Word) {p : Place} (h : p.remindedBy e) : (p.writePolicy e v).remindedBy e := by
  rw [Place.writePolicy_judged]
  split
  · rename_i hfields
    refine Place.remindedBy_of_reminding ⟨rfl, rfl⟩ ?_ h
    rw [Place.judgedPolicy_eq]
    simp only [Place.reminding, hfields]
  · refine Place.reminded_remind e e p (Place.timed_of_eq h.2 ?_ ?_)
    all_goals rw [Place.judgedPolicy_eq]

/-- A table read takes marks away and nothing else (R166). -/
theorem eq_of_mem_clearRun {port : Port} {start count n : Nat} {ps : List Place} {q : Place} (h : q ∈ clearRun port start count n ps) :
    ∃ p ∈ ps, q = { p with marks := q.marks } := by
  induction ps generalizing n with
  | nil => cases h
  | cons p ps ih =>
    rcases List.mem_cons.1 h with rfl | h
    · refine ⟨p, List.mem_cons_self, ?_⟩
      split <;> rfl
    · obtain ⟨r, hr, hq⟩ := ih h
      exact ⟨r, List.mem_cons_of_mem p hr, hq⟩

/-! ## The places of the list -/

/-- What the record that takes a number holds for the law: that of a listed place, or OFF as a place joins (R45, R143). -/
theorem Device.placeAt_reminding (d : Device) (id : Identity) (n : Nat) :
    (∃ p ∈ d.places, (d.placeAt id n).reminding = p.reminding) ∨ ((d.placeAt id n).stage = .off ∧ (d.placeAt id n).timer = 0) := by
  unfold Device.placeAt
  split
  · rename_i p hp
    refine .inl ⟨p, List.mem_of_find?_eq_some hp, ?_⟩
    split <;> rfl
  · refine .inr ⟨?_, ?_⟩
    all_goals rw [Device.newPlace_eq]; rfl

/-- A rebuild evaluates no place (R45, R46, R155). -/
theorem Device.rebuild_reminding {d : Device} {q : Place} (hq : q ∈ d.rebuild.places) :
    (∃ p ∈ d.places, q.reminding = p.reminding) ∨ (q.stage = .off ∧ q.timer = 0) := by
  by_cases hlist : d.newList = d.places.map Place.id
  · refine .inl ⟨q, ?_, rfl⟩
    have hlist' : d.newList = d.places.map (·.id) := hlist
    unfold Device.rebuild at hq
    simpa only [hlist', if_true, Device.setGlobal_places] using hq
  · obtain ⟨n, hn⟩ := List.getElem?_of_mem hq
    rw [Place.eq_of_lampMoved (Device.rebuild_place hlist hn)]
    exact d.placeAt_reminding q.id n

section
variable {d e : Device} (h : d.reminderLaw)
include h

/-- Blocks that the law does not read may have changed. -/
theorem Device.reminderLaw_rest (hp : e.places = d.places) (he : d.env.RemindsAs e.env) : e.reminderLaw := fun q hq => by
  rw [hp] at hq
  exact Place.remindedBy_of_reminding he rfl (h q hq)

theorem Device.reminderLaw_map {f : Place → Place} (hp : e.places = d.places.map f)
    (hf : ∀ p : Place, p.remindedBy d.env → (f p).remindedBy e.env) : e.reminderLaw := fun q hq => by
  rw [hp] at hq
  obtain ⟨p, hp, rfl⟩ := List.mem_map.1 hq
  exact hf p (h p hp)

theorem Device.reminderLaw_modifyPlace (n : Nat) {f : Place → Place} (hf : ∀ p : Place, p.remindedBy d.env → (f p).remindedBy d.env) :
    (d.modifyPlace n f).reminderLaw := fun q hq => by
  obtain ⟨i, hi⟩ := List.mem_iff_getElem?.1 (show q ∈ d.places.modify n f from hq)
  rw [List.getElem?_modify] at hi
  obtain ⟨p, hp, rfl⟩ := Option.map_eq_some_iff.1 hi
  have hreminded := h p (List.mem_of_getElem? hp)
  split
  · exact hf p hreminded
  · exact hreminded

/-- A change of a place that the law does not look at. -/
theorem Device.reminderLaw_modifyRest (n : Nat) {f : Place → Place} (hf : ∀ p : Place, (f p).reminding = p.reminding) :
    (d.modifyPlace n f).reminderLaw :=
  Device.reminderLaw_modifyPlace h n fun p => Place.remindedBy_of_reminding ⟨rfl, rfl⟩ (hf p)

theorem Device.reminderLaw_of_goes (hg : d.Goes (fun p q => p.remindedBy d.env → q.remindedBy d.env) e) : e.reminderLaw := fun q hq => by
  obtain ⟨p, hp, hpq⟩ := forall₂_mem_right hg.places hq
  have hreminded := hpq (h p hp)
  rwa [← Device.env_of_still hg.still] at hreminded

theorem Device.reminderLaw_atMoment (m : Moment) : (d.atMoment m).reminderLaw :=
  Device.reminderLaw_rest h (d.atMoment_places m) ⟨d.atMoment_mode m, congrArg Vehicle.ignition (d.atMoment_vehicle m)⟩

theorem Device.reminderLaw_rebuild : d.rebuild.reminderLaw := fun q hq => by
  have henv : d.env.RemindsAs d.rebuild.env := ⟨d.rebuild_mode, congrArg Vehicle.ignition d.rebuild_vehicle⟩
  rcases Device.rebuild_reminding hq with ⟨p, hp, hqp⟩ | ⟨hstage, htimer⟩
  · exact Place.remindedBy_of_reminding henv hqp (h p hp)
  · exact Place.remindedBy_of_off hstage htimer

theorem Device.reminderLaw_completeStartup : d.completeStartup.reminderLaw := by
  by_cases hm : d.mode = .startUp
  · obtain ⟨hplaces, -⟩ := Device.completeStartup_inStartUp hm
    exact Device.reminderLaw_map h hplaces fun p hp => Place.reminded_modeChanged _ _ hp.2
  · exact Device.reminderLaw_rest h (Device.completeStartup_otherwise hm)
      ⟨by rw [Device.env, Device.completeStartup_mode, if_neg hm]; rfl, congrArg Vehicle.ignition d.completeStartup_vehicle⟩

/-! ## The end of an exchange, and the events of the link -/

theorem Device.reminderLaw_settled : d.settled.reminderLaw := by
  have hrebuilt := Device.reminderLaw_rebuild h
  unfold Device.settled
  split
  · exact Device.reminderLaw_completeStartup hrebuilt
  · exact hrebuilt

theorem Device.reminderLaw_handed (x : Exchange) (o : LinkOutcome) : (d.handed x o).reminderLaw := by
  have hdeliver : (d.deliver x o).reminderLaw := Device.reminderLaw_of_goes h (Device.goes_deliver (reminder_work _) x o)
  unfold Device.handed
  split
  · exact Device.reminderLaw_of_goes hdeliver (Device.goes_lateExpiry (reminder_work _) x.station)
  · exact hdeliver

theorem Device.reminderLaw_endExchange (x : Exchange) (o : LinkOutcome) : (d.endExchange x o).reminderLaw := by
  have hheard : (d.heard x o).reminderLaw :=
    Device.reminderLaw_rest h (Device.heard_places x o) ⟨d.heard_mode x o, congrArg Vehicle.ignition (Device.heard_vehicle d x o)⟩
  rw [Device.endExchange_eq]
  exact Device.reminderLaw_settled (Device.reminderLaw_handed hheard x o)

theorem Device.reminderLaw_launchRetry (x : Exchange) : (d.launchRetry x).reminderLaw := by rw [Device.launchRetry_eq]; exact h

theorem Device.reminderLaw_attemptFailed (x : Exchange) (k : FailKind) : (d.attemptFailed x k).reminderLaw := by
  unfold Device.attemptFailed
  split
  · unfold Device.retry; simp only; split
    · exact h
    · exact Device.reminderLaw_launchRetry h _
  · exact Device.reminderLaw_endExchange h x _

theorem Device.reminderLaw_takeChar (x : Exchange) (ch : RxChar) : (d.takeChar x ch).reminderLaw := by
  unfold Device.takeChar; simp only; split
  · exact h
  · exact h
  · exact Device.reminderLaw_attemptFailed h _ _
  · exact Device.reminderLaw_endExchange h x _

/-! ## The other events of the blocks -/

theorem Device.reminderLaw_probeMark (t : Nat) : (d.probeMark t).reminderLaw := by
  unfold Device.probeMark; simp only
  repeat' split
  · exact h
  · exact Device.reminderLaw_of_goes (by exact h) (Device.goes_askProbe (reminder_work _) _)
  · exact h

theorem Device.reminderLaw_reProbeMark (c : Code) (t : Nat) : (d.reProbeMark c t).reminderLaw := by
  unfold Device.reProbeMark; simp only; split <;> exact h

theorem Device.reminderLaw_writeParam (id v : Nat) : (d.writeParam id v).reminderLaw := by
  rw [Device.writeParam_eq]
  by_cases hid : 13 ≤ id
  · rw [if_pos hid]
    exact Device.reminderLaw_map h rfl fun p hp => Place.reminded_remind _ _ p hp.2
  · rw [if_neg hid]
    exact h

theorem Device.reminderLaw_lapse : d.lapse.reminderLaw :=
  Device.reminderLaw_map h d.lapse_places fun p hp => Place.reminded_remind _ _ p hp.2

theorem Device.reminderLaw_supply (ignition : Bool) (speed : Nat) : (d.supply ignition speed).reminderLaw :=
  Device.reminderLaw_map h (d.supply_places ignition speed) fun _ hp => Place.reminded_supplied _ _ hp.2 _ _

end

/-! ## Every event -/

theorem Device.Event.reminderLaw {d e : Device} {c : Instr} (h : d.Event c e) (hd : d.reminderLaw) : e.reminderLaw := by
  have hm : ∀ m, (d.atMoment m).reminderLaw := Device.reminderLaw_atMoment hd
  cases h with
  | quiet | settle | unknownExpiry | recoveryEnd => exact hd
  | grant m choice => cases choice <;> exact hm m
  | frameSent m | noEffect c m => exact hm m
  | globalFaultsRead p f | globalFaultsClear p f | setAttn p f => exact hm f.moment
  | char m ch x => exact Device.reminderLaw_takeChar (hm m) x ch
  | attemptFailed c m x k => exact Device.reminderLaw_attemptFailed (hm m) x k
  | heldRetry m x => exact Device.reminderLaw_launchRetry (hm m) x
  | selfRelax c t =>
    split
    · exact Device.reminderLaw_of_goes (by exact hd) (Device.goes_scanFailed (reminder_work _) c)
    · exact hd
  | tick => exact Device.reminderLaw_map hd rfl fun p => Place.reminded_tick d ⟨rfl, rfl⟩
  | freshnessLoss n p => exact Device.reminderLaw_modifyPlace hd n fun p hp => Place.reminded_loseFreshness _ hp.2
  | nodeSilent n p => exact Device.reminderLaw_modifyRest hd n fun p => p.setFault_reminding _ _
  | probeMark t => exact Device.reminderLaw_probeMark hd t
  | reProbeMark c t => exact Device.reminderLaw_reProbeMark hd c t
  | silentExpiry c t => exact Device.reminderLaw_rebuild (by exact hd)
  | startupLimit => exact Device.reminderLaw_completeStartup hd
  | lapse t => exact Device.reminderLaw_lapse hd
  | lampTimer n p | chimeTimer n p => exact Device.reminderLaw_modifyPlace hd n fun p hp => Place.reminded_remind _ _ p hp.2
  | trimMark n p t => exact Device.reminderLaw_modifyRest hd n fun _ => rfl
  | placeStatus p f | placeFaultsRead p f | placeFaultsClear p f => exact Device.reminderLaw_modifyRest (hm _) _ fun _ => rfl
  | tableRead p f =>
    intro q hq
    obtain ⟨r, hr, hqr⟩ := eq_of_mem_clearRun hq
    exact Place.remindedBy_of_reminding ⟨rfl, rfl⟩ (by rw [hqr]; rfl) (hm f.moment r hr)
  | setParam p f row => exact Device.reminderLaw_writeParam (hm _) _ _
  | setPolicy p f q => exact Device.reminderLaw_modifyPlace (hm _) _ fun q => Place.reminded_writePolicy _ _
  | vehicleState f => exact Device.reminderLaw_supply (hm _) _ _
  | calZero p f => exact Device.reminderLaw_modifyRest (hm _) _ fun q => q.startCal_reminding _ _
  | linkTest p f c => exact Device.reminderLaw_of_goes (by exact hm f.moment) (Device.goes_takeUpTest (reminder_work _) c)
  | acceptMap f =>
    exact Device.reminderLaw_map (hm f.moment) rfl fun q => Place.remindedBy_of_reminding ⟨rfl, rfl⟩ (q.acceptedMap_reminding _ _)
  | freeze f => exact Device.reminderLaw_map (hm f.moment) rfl fun q _ => Place.reminded_freeze _ rfl q
  | unfreeze f => exact Device.reminderLaw_map (hm f.moment) rfl fun q hq => Place.reminded_unfreeze _ _ hq.2

end Sys2Proof.Machine
end

section
/-! PROOF. The law of the reminder stage after every step (O57). -/

namespace Sys2Proof.Machine

/-- A fastened place, and one that R145 excludes, is in OFF under the law. -/
theorem Place.remindedBy.off {d : Device} {p : Place} (h : p.remindedBy d.env)
    (hout : p.buckle = .latched ∨ p.reported = .empty ∨ p.policy.reminderEnable = false ∨ d.vehicle.ignition = false ∨ d.mode ≠ .run) :
    p.stage = .off := by
  by_contra hstage
  obtain ⟨heligible, hopen⟩ := h.1 hstage
  obtain ⟨hmode, hignition, henable, hclass⟩ := (d.eligible_iff p).1 heligible
  rcases hout with hlatched | hempty | hdisabled | hoff | hmode'
  · simp [Place.beltFastened, hlatched] at hopen
  · simp [hempty] at hclass
  · rw [henable] at hdisabled; cases hdisabled
  · rw [hignition] at hoff; cases hoff
  · exact hmode' hmode

/-- Settles O57: no place is listed at reset, every event keeps the law (`Device.Event.reminderLaw`), and under it the places that R147
names are in OFF (`Place.remindedBy.off`). -/
theorem everyStepKeepsTheReminderLaw : Obligations.EveryStepKeepsTheReminderLaw := by
  intro s t hs h
  have hreset : Device.reset.reminderLaw := fun _ hp => nomatch hp
  have hlaw := Device.law_kept_by_step (P := Device.reminderLaw) hreset (fun _ hd => hd) (fun _ _ _ hd he => he.reminderLaw hd) hs h
  exact ⟨hlaw, fun p hp => Place.remindedBy.off (hlaw p hp)⟩

end Sys2Proof.Machine
end

section
/-! PROOF. O24: the lapse. -/

namespace Sys2Proof.Machine

/-- Settles O24: a lapse is the fault's rise (`Device.setGlobal_rises`) with every place evaluated (`Device.place_of_remindAll`). -/
theorem theLapseMakesTheSpeedUnknown : Obligations.TheLapseMakesTheSpeedUnknown := by
  intro s start hstart
  have hexec : exec .lapseExpiry s = if s.dev.passed start 500 then s.event Device.lapse else .next s := by
    change execLapseExpiry s = _
    rw [execLapseExpiry, hstart]
  refine ⟨fun hearly => ?_, fun hlate => ⟨{ s with dev := s.dev.lapse.finish }, ?_, ?_⟩⟩
  · rw [hexec, if_neg]
    simpa [Device.passed] using hearly
  · rw [hexec, if_pos (show s.dev.passed start 500 = true from decide_eq_true hlate)]
    rfl
  · have hlive : s.dev.lapse.live.getLsbD GlobalFault.vehicleLapsed.bit = true := by rw [Device.lapse, Device.live_setGlobal, if_pos rfl]
    have hvehicle : s.dev.lapse.vehicle =
        { ignition := s.dev.vehicle.ignition, speed := none, lapseStart := none, speedZero := none } := Device.setGlobal_vehicle _ _ _
    refine ⟨rfl, hvehicle, by rw [Device.finish_vehicle, hvehicle]; rfl, hlive, fun hnew port => ?_, fun port => ?_,
      Device.setGlobal_st _ _ _, Device.setGlobal_lc _ _ _, Device.setGlobal_params _ _ _, Device.setGlobal_mode _ _ _,
      fun n p q hp hq => ?_⟩
    · rw [Device.finish_stickyGlobal, Device.finish_globalMark]
      exact Device.setGlobal_rises port hnew
    · rw [Device.finish_enable]
      exact Device.setGlobal_enable _ _ port _
    · exact Device.place_of_remindAll (flag := fun p => p) (e := s.dev.lapse.finish) (fun _ => rfl) s.dev.lapse_places hp hq

end Sys2Proof.Machine
end

section
/-! PROOF. O38: VEHICLE_STATE. -/

namespace Sys2Proof.Machine

/-! ## The request's value (R138) -/

/-- The bits of a vehicle state word, field by field: speed, the reserved bits, ignition. -/
theorem getLsbD_vehicleFields (ignition : BitVec 1) (reserved : BitVec 7) (speed : BitVec 8) (i : Nat) :
    (ignition ++ reserved ++ speed : Word).getLsbD i =
      if i < 8 then speed.getLsbD i else if i < 15 then reserved.getLsbD (i - 8) else ignition.getLsbD (i - 15) := by
  refine (BitVec.getLsbD_append ..).trans ?_
  rw [BitVec.getLsbD_append]
  split
  · rfl
  · by_cases h : i - 8 < 7
    · rw [if_pos h, if_pos (by omega)]
    · rw [if_neg h, if_neg (by omega), Nat.sub_sub]

theorem vehicleFields_eq (v : Word) : v = BitVec.ofBool (v.getLsbD 15) ++ v.extractLsb' 8 7 ++ v.extractLsb' 0 8 := by
  refine BitVec.eq_of_getLsbD_eq fun i hi => ?_
  rw [getLsbD_vehicleFields]
  interval_cases i <;> simp

theorem vehicleReserved_iff (v : Word) : (v &&& 0x7F00 != 0) = true ↔ v.extractLsb' 8 7 ≠ 0 := by
  have hfield : v &&& 0x7F00 = 0#1 ++ v.extractLsb' 8 7 ++ 0#8 := by
    refine BitVec.eq_of_getLsbD_eq fun i hi => ?_
    rw [getLsbD_vehicleFields]
    interval_cases i <;> simp
  have hzero : ∀ x : BitVec 7, 0#1 ++ x ++ 0#8 = (0 : Word) ↔ x = 0 := by decide
  rw [bne_iff_ne, hfield, ne_eq, ne_eq, hzero]

/-- With no reserved bit set the vehicle state word spells the record that it supplies. -/
theorem Vehicle.supplied_word (w : Vehicle) (stamp : Nat) {v : Word} (h : v.extractLsb' 8 7 = 0) :
    (w.supplied (v.getLsbD 15) (v.extractLsb' 0 8).toNat stamp).word = v := by
  have hflags : ∀ b : Bool, BitVec.ofBool b ++ 0#5 ++ BitVec.ofBool false ++ BitVec.ofBool false = BitVec.ofBool b ++ 0#7 := by decide
  have hv := vehicleFields_eq v
  rw [h] at hv
  refine Eq.trans ?_ hv.symm
  change BitVec.ofBool (v.getLsbD 15) ++ 0#5 ++ BitVec.ofBool false ++ BitVec.ofBool false ++
    BitVec.ofNat 8 (v.extractLsb' 0 8).toNat = _
  rw [hflags, BitVec.ofNat_toNat, BitVec.setWidth_eq]
  rfl

/-! ## VEHICLE_STATE by its table (R138) -/

section
variable {f : Frame} (d : Device) (u : PortUnit)

theorem vehicleStateRule_portA : vehicleStateRule .a f d u = Reply.only .notPermitted d.vehicle.word d u := rfl

theorem vehicleStateRule_reserved (h : f.value.extractLsb' 8 7 ≠ 0) :
    vehicleStateRule .b f d u = Reply.only .range d.vehicle.word d u := by
  rw [vehicleStateRule, if_neg (by decide), if_pos ((vehicleReserved_iff _).2 h)]

theorem Device.supply_vehicle (ignition : Bool) (speed : Nat) :
    (d.supply ignition speed).vehicle = d.vehicle.supplied ignition speed d.stamp := Device.setGlobal_vehicle _ _ _

/-- An accepted VEHICLE_STATE answers with its own value. -/
theorem vehicleStateRule_accepted (h : f.value.extractLsb' 8 7 = 0) : vehicleStateRule .b f d u = {
    status := .ok, data := f.value, unit := u, dev := d.supply (f.value.getLsbD 15) (f.value.extractLsb' 0 8).toNat } := by
  rw [vehicleStateRule, if_neg (by decide), if_neg (by rw [vehicleReserved_iff]; exact not_not_intro h)]
  simp only [Device.supply_vehicle, Vehicle.supplied_word _ _ h]

end

/-! ## The places after an accepted VEHICLE_STATE (R144, R151) -/

section
variable {d e : Device} {ignition : Bool} {speed n : Nat} {p q : Place}

theorem Device.supply_place (hp : d.places[n]? = some p) (hq : (d.supply ignition speed).places[n]? = some q) :
    q = { p with fastened := q.fastened, stage := q.stage, timer := q.timer, marks := q.marks } ∧
    q.fastened = (p.tripFlag d.vehicle.ignition ignition).fastened ∧ d.evaluated (d.supply ignition speed) p q := by
  obtain ⟨hframe, hevaluated⟩ := Device.place_of_remindAll (Place.tripFlag_eq d.vehicle.ignition ignition)
    (d.supply_places ignition speed) hp hq
  have hfastened : q.fastened = (p.tripFlag d.vehicle.ignition ignition).fastened := by rw [hframe]
  exact ⟨by rw [hfastened]; exact hframe, hfastened, hevaluated⟩

theorem Device.supply_ids (d : Device) (ignition : Bool) (speed : Nat) :
    (d.supply ignition speed).places.map Place.id = d.places.map Place.id := by
  rw [Device.supply_places, List.map_map]
  exact List.map_congr_left fun p _ => by simp

/-- With the ignition OFF no place is eligible, so an evaluation leaves it in OFF (R147). -/
theorem Device.stageAfter_ignitionOff (h : e.vehicle.ignition = false) (p : Place) : e.stageAfter p = (.off, 0) := by
  refine if_pos (.inr fun hneeds => ?_)
  obtain ⟨-, hignition, -⟩ := hneeds
  rw [h] at hignition
  cases hignition

/-- At the trip end no place is fastened this trip, and each is in stage OFF (R144, R147). -/
theorem Device.supply_tripEnd (hbefore : d.vehicle.ignition = true) (hq : q ∈ (d.supply false speed).places) :
    q.fastened = false ∧ q.stage = .off := by
  obtain ⟨n, hn⟩ := List.getElem?_of_mem hq
  obtain ⟨p, hp⟩ : ∃ p, d.places[n]? = some p := by
    rw [Device.supply_places, List.getElem?_map] at hn
    obtain ⟨p, hp, -⟩ := Option.map_eq_some_iff.1 hn
    exact ⟨p, hp⟩
  obtain ⟨-, hfastened, hstage, -⟩ := Device.supply_place hp hn
  constructor
  · rw [hfastened, Place.tripFlag_fastened, hbefore, if_pos ⟨rfl, rfl⟩]
  · rw [Device.stageAfter_ignitionOff (by rw [Device.supply_vehicle]; rfl)] at hstage
    exact congrArg Prod.fst hstage

end

/-- Settles O38: `vehicleStateRule_portA`, `vehicleStateRule_reserved` and `vehicleStateRule_accepted` give the answers, and
`Device.supply_place` what an accepted VEHICLE_STATE makes of each place. -/
theorem vehicleStateSuppliesIgnitionAndSpeed : Obligations.VehicleStateSuppliesIgnitionAndSpeed := by
  intro f s
  generalize hd : s.dev.atMoment f.moment = d
  have hvehicle : d.vehicle = s.dev.vehicle := by rw [← hd, Device.atMoment_vehicle]
  have hplaces : d.places = s.dev.places := by rw [← hd, Device.atMoment_places]
  have hkeeps : s.dev.kept d.finish := by rw [← hd]; exact s.dev.kept_finish f.moment
  refine ⟨fun hopen => ?portA, fun hopen => ?portB⟩
  case portA =>
    have hrule := vehicleStateRule_portA (f := f) d (s.ports.get .a)
    obtain ⟨t, hexec, hdev, hanswered, hkept⟩ :=
      State.takeRequest_open s .a f Request.vehicleState.code (vehicleStateRule .a f) hopen (by rw [hd, hrule]; rfl)
    rw [hd, hrule] at hdev hanswered hkept
    exact ⟨t, hexec, by rw [State.blocksKept, hdev]; exact hkeeps, hkept, by rw [← hvehicle]; exact hanswered⟩
  case portB =>
    by_cases hreserved : f.value.extractLsb' 8 7 = 0
    · have hrule := vehicleStateRule_accepted d (s.ports.get .b) hreserved
      obtain ⟨t, hexec, hdev, hanswered, hkept⟩ :=
        State.takeRequest_open s .b f Request.vehicleState.code (vehicleStateRule .b f) hopen (by rw [hd, hrule])
      rw [hd, hrule] at hdev hanswered hkept
      replace hdev : t.dev = (d.supply (f.value.getLsbD 15) (f.value.extractLsb' 0 8).toNat).finish := hdev
      generalize (f.value.extractLsb' 0 8).toNat = speed at hdev ⊢
      generalize f.value.getLsbD 15 = ignition at hdev ⊢
      have hsupplied : t.dev.vehicle = s.dev.vehicle.supplied ignition speed d.stamp := by
        rw [hdev, Device.finish_vehicle, Device.supply_vehicle, hvehicle]
      refine ⟨t, hexec, hkept, fun h => absurd hreserved h, fun _ => ?_⟩
      refine ⟨hanswered, by rw [hsupplied]; rfl, by rw [hsupplied]; rfl, by rw [hsupplied]; rfl, ?_, ?_, fun hbefore hafter q hq => ?_,
        ?_, ?_, ?_, ?_, fun n p q hp hq => ?_⟩
      · rw [hdev, Device.finish_live, Device.supply, Device.live_setGlobal, if_pos rfl]
      · rw [hsupplied]
        exact (ite_not ..).symm
      · rw [hdev, Device.finish_places] at hq
        subst hafter
        exact Device.supply_tripEnd (by rw [hvehicle]; exact hbefore) hq
      · rw [hdev, ← hd]; simp [Device.supply]
      · rw [hdev, ← hd]; simp [Device.supply]
      · rw [hdev, ← hd]; simp [Device.supply]
      · rw [hdev, Device.finish_places, Device.supply_ids, hplaces]
      · rw [← hplaces] at hp
        rw [hdev, Device.finish_places] at hq
        obtain ⟨hframe, hfastened, hevaluated⟩ := Device.supply_place hp hq
        rw [Place.tripFlag_fastened, hvehicle] at hfastened
        refine ⟨hframe, hfastened, ?_⟩
        subst hd
        rw [hdev]
        exact Device.evaluated_atMoment hevaluated
    · have hrule := vehicleStateRule_reserved d (s.ports.get .b) hreserved
      obtain ⟨t, hexec, hdev, hanswered, hkept⟩ :=
        State.takeRequest_open s .b f Request.vehicleState.code (vehicleStateRule .b f) hopen (by rw [hd, hrule]; rfl)
      rw [hd, hrule] at hdev hanswered hkept
      exact ⟨t, hexec, hkept, fun _ => ⟨by rw [← hvehicle]; exact hanswered, by rw [State.blocksKept, hdev]; exact hkeeps⟩,
        fun h => absurd h hreserved⟩

end Sys2Proof.Machine
end

section
/-! PROOF. What every command leaves of the ports and of the queue (O3), and the law of the transfers through every step (O49). -/

namespace Sys2Proof.Machine

/-! ## A transfer at an event (R166 to R168) -/

/-- What an event can make of a port's transfer: it stands as it stood, its next word is read, or a snapshot is taken. -/
inductive PortUnit.Transfer (u v : PortUnit) : Prop
  | kept : v.buffer = u.buffer → v.cursor = u.cursor → v.remaining = u.remaining → Transfer u v
  | next : u.remaining ≠ 0 → v.buffer = u.buffer → v.cursor = u.cursor + 1 → v.remaining = u.remaining - 1 → Transfer u v
  | snapshot : v.buffer.length = v.remaining → v.remaining ≤ Config.bufferWords →
      v.cursor + v.remaining ≤ Config.tableWords → Transfer u v

theorem PortUnit.Transfer.of_eq {u v : PortUnit} (h : v = u) : u.Transfer v := h ▸ .kept rfl rfl rfl

/-- The end of a frame leaves the transfer to the request's rule. -/
theorem PortUnit.Transfer.closeFrame {u v : PortUnit} (h : u.Transfer v) (loaded : List Byte) (edges : Nat) (r : Response) :
    u.Transfer (v.closeFrame loaded edges r) := by
  cases h with
  | kept hbuffer hcursor hremaining => exact .kept hbuffer hcursor hremaining
  | next hleft hbuffer hcursor hremaining => exact .next hleft hbuffer hcursor hremaining
  | snapshot hlength hfits hinside => exact .snapshot hlength hfits hinside

theorem PortUnit.Transfer.law {u v : PortUnit} (h : u.Transfer v) (hu : u.transferLaw) : v.transferLaw := by
  obtain ⟨hfits, hinside, hbuffer, hheld⟩ := hu
  cases h with
  | kept eb ec er => rw [PortUnit.transferLaw, eb, ec, er]; exact ⟨hfits, hinside, hbuffer, hheld⟩
  | next hleft eb ec er =>
    rw [PortUnit.transferLaw, eb, ec, er]
    exact ⟨by omega, by omega, hbuffer, by omega⟩
  | snapshot hlength hfits' hinside' => exact ⟨hfits', hinside', hlength.trans_le hfits', hlength.ge⟩

/-! ## The unit that each request's rule gives back -/

section
variable (p : Port) (f : Frame) (d : Device) (u : PortUnit)

theorem readNextRule_transfer : u.Transfer (readNextRule d u).unit := by
  unfold readNextRule
  split
  · exact .of_eq rfl
  · rename_i hleft; exact .next hleft rfl rfl rfl

theorem tableReadRule_transfer : u.Transfer (tableReadRule p f d u).unit := by
  unfold tableReadRule
  dsimp only
  split
  · exact .of_eq rfl
  · rename_i hrun
    obtain ⟨-, hrun⟩ := not_or.1 hrun
    obtain ⟨hfits, hinside⟩ := not_or.1 hrun
    exact .snapshot (by simp [Device.tableRun]) (not_lt.1 hfits) (not_lt.1 hinside)

theorem statusRule_unit : (statusRule p f d u).unit = u := by unfold statusRule; split <;> rfl
theorem placeStatusRule_unit : (placeStatusRule p f d u).unit = u := by unfold placeStatusRule; split <;> rfl
theorem reminderSummaryRule_unit : (reminderSummaryRule f d u).unit = u := by
  unfold reminderSummaryRule
  split
  · rfl
  · split <;> rfl
theorem faultsReadRule_unit : (faultsReadRule p f d u).unit = u := by
  unfold faultsReadRule
  split
  · rfl
  · split <;> rfl
theorem faultsClearRule_unit : (faultsClearRule p f d u).unit = u := by
  unfold faultsClearRule
  split
  · rfl
  · split <;> rfl
theorem setParamRule_unit : (setParamRule p f d u).unit = u := by rw [setParamRule_eq]
theorem setPolicyRule_unit : (setPolicyRule p f d u).unit = u := by
  by_cases h : setPolicyAnswer d p f = .ok
  · obtain ⟨q, -, hrule⟩ := setPolicyRule_ok (u := u) h
    rw [hrule]
  · rw [setPolicyRule_refused h]; rfl
theorem setAttnRule_unit : (setAttnRule p f d u).unit = u := by unfold setAttnRule; split <;> rfl
theorem vehicleStateRule_unit : (vehicleStateRule p f d u).unit = u := by
  unfold vehicleStateRule
  split
  · rfl
  · split <;> rfl
theorem calZeroRule_unit : (calZeroRule p f d u).unit = u := by rw [calZeroRule_eq]
theorem linkTestRule_unit : (linkTestRule f d u).unit = u := by
  unfold linkTestRule
  dsimp only
  split
  · rfl
  · iterate 4
      split
      · rfl
    rfl
theorem acceptMapRule_unit : (acceptMapRule p f d u).unit = u := by rw [acceptMapRule_eq]
theorem freezeRule_unit : (freezeRule p d u).unit = u := by rw [freezeRule_eq]
theorem unfreezeRule_unit : (unfreezeRule p d u).unit = u := by rw [unfreezeRule_eq]

end

/-! ## What a command leaves of the ports -/

/-- From `s` to `t` a command left the queue as it was and touched the unit of its own port alone, whose transfer took one of its
events. -/
structure State.PortsAfter (s : State) (c : Instr) (t : State) : Prop where
  pending : t.pending = s.pending
  others : ∀ p : Port, c.port ≠ some p → t.ports.get p = s.ports.get p
  transfers : ∀ p : Port, (s.ports.get p).Transfer (t.ports.get p)

/-- A command's outcome is a next state, with the ports after it. -/
def State.Answers (s : State) (c : Instr) (r : Result) : Prop := ∃ t : State, r = .next t ∧ s.PortsAfter c t

section
variable {s : State} {c : Instr}

theorem State.answers_same : s.Answers c (.next s) := ⟨s, rfl, rfl, fun _ _ => rfl, fun _ => .of_eq rfl⟩

/-- An event of the blocks touches no port. -/
theorem State.answers_event (f : Device → Device) : s.Answers c (s.event f) :=
  ⟨_, rfl, rfl, fun _ _ => rfl, fun _ => .of_eq rfl⟩

theorem State.answers_guarded {P : Prop} [Decidable P] (f : Device → Device) : s.Answers c (if P then s.event f else .next s) := by
  split
  · exact State.answers_event f
  · exact State.answers_same

theorem State.answers_attemptEnds (m : Moment) (phase : Phase) (k : FailKind) : s.Answers c (s.attemptEnds m phase k) := by
  unfold State.attemptEnds
  split
  · exact State.answers_guarded _
  · exact State.answers_same

/-- An event of a port puts that port's unit alone. -/
theorem State.answers_unit {p : Port} {u : PortUnit} (hc : c.port = some p) (hu : (s.ports.get p).Transfer u) (d : Device) :
    s.Answers c (.next { s with dev := d, ports := s.ports.set p u }) := by
  refine ⟨_, rfl, rfl, fun q hq => Both.get_set_ne _ _ _ _ fun h => hq (h ▸ hc), fun q => ?_⟩
  by_cases h : q = p
  · subst h; rw [Both.get_set_same]; exact hu
  · rw [Both.get_set_ne _ _ _ _ h]; exact .of_eq rfl

theorem State.answers_setPort {p : Port} {u : PortUnit} (hc : c.port = some p) (hu : (s.ports.get p).Transfer u) :
    s.Answers c (.next (s.setPort p u)) := State.answers_unit hc hu s.dev

/-- A request leaves its port's transfer to its rule. -/
theorem State.answers_request {p : Port} {f : Frame} {code : BitVec 6} {rule : Device → PortUnit → Reply} (hc : c.port = some p)
    (hrule : ∀ (d : Device) (u : PortUnit), u.Transfer (rule d u).unit) : s.Answers c (s.takeRequest p f code rule) := by
  unfold State.takeRequest
  split
  · exact State.answers_unit hc ((hrule _ _).closeFrame _ _ _) _
  · exact State.answers_same

end

/-- The ports after any command but RESET. -/
theorem exec_answers {c : Instr} (hc : c ≠ .reset) (s : State) : s.Answers c (exec c s) := by
  cases c
  case reset => exact absurd rfl hc
  -- Events without a condition, or with one of the device alone.
  case dueTimeReached | budgetEntryAged => exact State.answers_same
  case ageTick => simpa only [exec, execAgeTick] using State.answers_event _
  case startupTimeLimit => exact State.answers_guarded _
  case linkQuietPassed =>
    simp only [exec, execLinkQuietPassed]
    split
    · exact State.answers_same
    · exact State.answers_event _
  case arbiterChoice =>
    simp only [exec, execArbiterChoice]
    split
    · split
      · exact State.answers_event _
      · exact State.answers_same
    · exact State.answers_same
  case trimMark =>
    simp only [exec, execTrimMark]
    split
    · split
      · exact State.answers_guarded _
      · exact State.answers_same
    · exact State.answers_same
  case noAnswerTimeout | truncatedTimeout | drainQuietTimeout => exact State.answers_attemptEnds ..
  -- Events of one record: an exchange, a station, a place, the lapse timer. Each is taken while the record stands and its condition holds.
  case commandFrameSent | linkCharacterReceived | exciteRetryStart | settlePassed | selfRelaxExpiry | excitedUnknownExpiry
      | recoveryEnd | freshnessLoss | nodeSilentAfterJoin | probeMark | reProbeMark | silentExpiry | lapseExpiry | lampTimerReached
      | chimeTimerReached =>
    simp only [exec, execCommandFrameSent, execLinkCharacterReceived, execExciteRetryStart, execSettlePassed, execSelfRelaxExpiry,
      execExcitedUnknownExpiry, execRecoveryEnd, execFreshnessLoss, execNodeSilentAfterJoin, execProbeMark, execReProbeMark,
      execSilentExpiry, execLapseExpiry, execLampTimerReached, execChimeTimerReached]
    split
    · exact State.answers_guarded _
    · exact State.answers_same
  -- Chip select and frames without effect.
  case chipSelectHighAfterReset => exact State.answers_setPort rfl (.kept rfl rfl rfl)
  case chipSelectFall =>
    simp only [exec, execChipSelectFall]
    split
    · exact State.answers_setPort rfl (.kept rfl rfl rfl)
    · exact State.answers_same
  case badFrame =>
    simp only [exec, execBadFrame]
    split
    · split
      · exact State.answers_same
      · exact State.answers_setPort rfl (.kept rfl rfl rfl)
    · exact State.answers_same
  case illegalRequest =>
    simp only [exec, execIllegalRequest]
    split
    · exact State.answers_request rfl fun _ _ => .of_eq rfl
    · exact State.answers_same
  -- The requests, each by what its rule gives back.
  case readNext => exact State.answers_request rfl readNextRule_transfer
  case tableRead p f => exact State.answers_request rfl (tableReadRule_transfer p f)
  case changes => exact State.answers_request rfl fun _ _ => .of_eq rfl
  case status p f => exact State.answers_request rfl fun d u => .of_eq (statusRule_unit p f d u)
  case placeStatus p f => exact State.answers_request rfl fun d u => .of_eq (placeStatusRule_unit p f d u)
  case faultsRead p f => exact State.answers_request rfl fun d u => .of_eq (faultsReadRule_unit p f d u)
  case faultsClear p f => exact State.answers_request rfl fun d u => .of_eq (faultsClearRule_unit p f d u)
  case reminderSummary _ f => exact State.answers_request rfl fun d u => .of_eq (reminderSummaryRule_unit f d u)
  case setParam p f => exact State.answers_request rfl fun d u => .of_eq (setParamRule_unit p f d u)
  case setPolicy p f => exact State.answers_request rfl fun d u => .of_eq (setPolicyRule_unit p f d u)
  case setAttn p f => exact State.answers_request rfl fun d u => .of_eq (setAttnRule_unit p f d u)
  case vehicleState p f => exact State.answers_request rfl fun d u => .of_eq (vehicleStateRule_unit p f d u)
  case calZero p f => exact State.answers_request rfl fun d u => .of_eq (calZeroRule_unit p f d u)
  case linkTest _ f => exact State.answers_request rfl fun d u => .of_eq (linkTestRule_unit f d u)
  case acceptMap p f => exact State.answers_request rfl fun d u => .of_eq (acceptMapRule_unit p f d u)
  case freeze p _ => exact State.answers_request rfl fun d u => .of_eq (freezeRule_unit p d u)
  case unfreeze p _ => exact State.answers_request rfl fun d u => .of_eq (unfreezeRule_unit p d u)

theorem exec_portsAfter {c : Instr} {s t : State} (hc : c ≠ .reset) (h : exec c s = .next t) : s.PortsAfter c t := by
  obtain ⟨u, hu, hports⟩ := exec_answers hc s
  obtain rfl : u = t := Host.Outcome.next.inj (hu.symm.trans h)
  exact hports

/-! ## The statements -/

/-- Settles O49: every event of a transfer keeps its law (`PortUnit.Transfer.law`), and both transfers are empty after RESET. -/
theorem everyStepKeepsTheTransferLaw : Obligations.EveryStepKeepsTheTransferLaw := by
  intro s t hs h
  obtain ⟨ha, hb⟩ := hs
  unfold step at h
  split at h
  · cases h; exact ⟨ha, hb⟩
  · rename_i c rest _
    by_cases hc : c = .reset
    · subst hc; cases h
      exact (by decide : State.reset.transferLaw)
    · have hports := exec_portsAfter hc h
      exact ⟨(hports.transfers .a).law ha, (hports.transfers .b).law hb⟩

/-- Settles O3: `exec_answers` for every command but RESET, which goes on with the commands that wait. -/
theorem everyCommandAnswersAndOtherEventsLeaveThePortUnit : Obligations.EveryCommandAnswersAndOtherEventsLeaveThePortUnit := by
  refine ⟨fun c s => ?_, fun c s t p h hc hp => (exec_portsAfter hc h).others p hp⟩
  by_cases hc : c = .reset
  · subst hc; exact ⟨_, rfl, rfl⟩
  · obtain ⟨t, h, hports⟩ := exec_answers hc s
    exact ⟨t, h, hports.pending⟩

end Sys2Proof.Machine
end

section
/-! PROOF. Frames of a controller port: chip select and the response it loads (O26), bad frames and unknown codes (O27), the request that
40 bits spell (O44). -/

namespace Sys2Proof.Machine

/-! ## The bits of a run of bytes (R156, R158) -/

theorem byteBits_getElem? (b : Byte) {j : Nat} (hj : j < 8) : (byteBits b)[j]? = some (b.getLsbD (7 - j)) := by
  unfold byteBits
  interval_cases j <;> rfl

theorem bytesBits_length (bytes : List Byte) : (bytesBits bytes).length = 8 * bytes.length := by
  induction bytes with
  | nil => rfl
  | cons b bs ih =>
    rw [bytesBits, List.length_append, ih, List.length_cons]
    change 8 + _ = _
    omega

/-- Byte `i` comes after `8 * i` bits, most significant bit first. -/
theorem bytesBits_getElem? (bytes : List Byte) (i : Nat) {j : Nat} (hj : j < 8) :
    (bytesBits bytes)[8 * i + j]? = bytes[i]?.map (fun b => b.getLsbD (7 - j)) := by
  induction bytes generalizing i with
  | nil => rfl
  | cons b bs ih =>
    have hbyte : (byteBits b).length = 8 := rfl
    rw [bytesBits]
    cases i with
    | zero =>
      rw [Nat.mul_zero, Nat.zero_add, List.getElem?_append_left (by omega), byteBits_getElem? b hj]
      rfl
    | succ i =>
      rw [List.getElem?_append_right (by omega), hbyte, show 8 * (i + 1) + j - 8 = 8 * i + j by omega, ih]
      rfl

/-! ## Data out (R156, R158, R185) -/

theorem PortUnit.dataOut_closed {u : PortUnit} (h : u.loaded = none) (edge : Nat) : u.dataOut edge = none := by
  rw [PortUnit.dataOut, h]; rfl

theorem PortUnit.dataOut_bit {u : PortUnit} {bytes : List Byte} (h : u.loaded = some bytes) {i j : Nat} {b : Byte}
    (hb : bytes[i]? = some b) (hj : j < 8) : u.dataOut (8 * i + j) = some (b.getLsbD (7 - j)) := by
  rw [PortUnit.dataOut, h, Option.map_some, List.getD_eq_getElem?_getD, bytesBits_getElem? bytes i hj, hb]
  rfl

theorem PortUnit.dataOut_after {u : PortUnit} {bytes : List Byte} (h : u.loaded = some bytes) {edge : Nat}
    (hedge : 8 * bytes.length ≤ edge) : u.dataOut edge = some false := by
  rw [PortUnit.dataOut, h, Option.map_some, List.getD_eq_getElem?_getD,
    List.getElem?_eq_none (by rw [bytesBits_length]; exact hedge)]
  rfl

/-! ## Chip select (R156, R158, R159) -/

theorem execChipSelectFall_unseen {p : Port} {s : State} (h : (s.ports.get p).highSeen = false) :
    execChipSelectFall p s = .next s := if_neg fun hopens => by
  rw [h] at hopens
  exact absurd hopens.1 (by decide)

theorem execChipSelectFall_opens {p : Port} {s : State} (hseen : (s.ports.get p).highSeen = true)
    (hclosed : (s.ports.get p).loaded = none) : execChipSelectFall p s = .next (s.setPort p { s.ports.get p with
      loaded := some (responseBytes (s.dev.formResponse (s.ports.get p).response) (s.dev.report.get p).priority) }) :=
  if_pos ⟨hseen, hclosed⟩

/-- Settles O26: `execChipSelectFall_opens` and `execChipSelectFall_unseen` for the falling edge, the lemmas about
`PortUnit.dataOut` for what the open frame carries. -/
theorem chipSelectOpensAFrame : Obligations.ChipSelectOpensAFrame := by
  intro p s
  refine ⟨rfl, execChipSelectFall_unseen, fun hseen hclosed => ?_, fun u => ⟨PortUnit.dataOut_closed, ?_⟩⟩
  · refine (execChipSelectFall_opens hseen hclosed).trans ?_
    cases (s.ports.get p).response <;> rfl
  · exact fun bytes hloaded hfive =>
      ⟨fun i j b hb hj => PortUnit.dataOut_bit hloaded hb hj, fun edge hedge => PortUnit.dataOut_after hloaded (by omega)⟩

/-! ## Frames without effect (R157, R160, R168) -/

/-- A frame closed on a port answers there, and leaves the transfer and everything else (R158, R168). -/
theorem State.closeFrame_answered (s : State) (p : Port) (loaded : List Byte) (edges : Nat) (r : Response) :
    s.answered (s.setPort p ((s.ports.get p).closeFrame loaded edges r)) p r ∧
    s.transferKept (s.setPort p ((s.ports.get p).closeFrame loaded edges r)) p := by
  refine ⟨⟨?_, ?_, ?_, ?_, rfl⟩, ?_, ?_, ?_⟩ <;> simp [State.setPort, PortUnit.closeFrame]

/-- Settles O27: a bad frame closes the frame and touches nothing else; the rule of an unknown code changes nothing. -/
theorem badFramesAndUnknownRequestsHaveNoEffect : Obligations.BadFramesAndUnknownRequestsHaveNoEffect := by
  constructor
  · intro p bits s loaded hloaded hbad
    have hexec : exec (.badFrame p bits) s = .next (s.setPort p
        ((s.ports.get p).closeFrame loaded bits.length { status := .frameError, echo := 0, data := 0 })) := by
      simp only [exec, execBadFrame, hloaded, hbad, Bool.false_eq_true, if_false]
    obtain ⟨hanswered, hkept⟩ := s.closeFrame_answered p loaded bits.length { status := .frameError, echo := 0, data := 0 }
    exact ⟨_, hexec, rfl, hanswered, hkept, by simp [State.setPort, PortUnit.closeFrame]⟩
  · intro p code f s hopen hcode
    obtain ⟨t, hexec, hdev, hanswered, hkept⟩ :=
      State.takeRequest_open s p f code (Reply.only .illegal 0) hopen rfl
    refine ⟨t, ?_, ?_, hkept, hanswered⟩
    · exact (if_pos (by rw [hcode]; rfl)).trans hexec
    · rw [State.blocksKept, hdev]; exact s.dev.kept_finish f.moment

/-! ## The request that 40 bits spell (R156, R157, R183) -/

theorem requestOfCode_code (r : Request) : requestOfCode r.code = some r := by cases r <;> rfl

theorem bitsNat_append (xs ys : List Bool) : bitsNat (xs ++ ys) = bitsNat xs * 2 ^ ys.length + bitsNat ys := by
  induction ys using List.reverseRecOn with
  | nil => simp [bitsNat]
  | append_singleton ys y ih =>
    have hsnoc : ∀ zs : List Bool, bitsNat (zs ++ [y]) = 2 * bitsNat zs + y.toNat := fun zs => by simp [bitsNat]
    rw [← List.append_assoc, hsnoc, hsnoc, ih, List.length_append, List.length_singleton, Nat.pow_succ]
    ring

theorem bitsNat_byteBits (b : Byte) : bitsNat (byteBits b) = b.toNat := by
  revert b; decide

theorem ofNat_bitsNat_byteBits (b : Byte) : BitVec.ofNat 8 (bitsNat (byteBits b)) = b := by
  rw [bitsNat_byteBits, BitVec.ofNat_toNat, BitVec.setWidth_eq]

/-- Two bytes, the more significant first, spell the word that they are taken from (R183). -/
theorem ofNat_bitsNat_wordBits (v : Word) :
    BitVec.ofNat 16 (bitsNat (byteBits (v.extractLsb' 8 8) ++ byteBits (v.extractLsb' 0 8))) = v := by
  rw [bitsNat_append, bitsNat_byteBits, bitsNat_byteBits]
  refine BitVec.eq_of_toNat_eq ?_
  rw [BitVec.toNat_ofNat]
  simp only [BitVec.extractLsb'_toNat, Nat.shiftRight_eq_div_pow]
  have := v.isLt
  change (_ * 2 ^ 8 + _) % _ = _
  omega

/-- The head byte of a request: the code's six bits, the forced flag, the global flag (R156). -/
theorem headBits (code : BitVec 6) (forced global : Bool) :
    BitVec.ofNat 6 (bitsNat ((byteBits (code ++ BitVec.ofBool forced ++ BitVec.ofBool global)).take 6)) = code ∧
    (byteBits (code ++ BitVec.ofBool forced ++ BitVec.ofBool global)).drop 6 = [forced, global] := by
  revert code forced global; decide

section
variable (code : BitVec 6) (f : Frame)

theorem isGoodFrame_requestBits : isGoodFrame (requestBits code f) = true := by
  have hcrc : (requestBits code f).drop 32 = byteBits (crcOfBits (bytesBits (requestBytes code f))) := rfl
  have hbody : (requestBits code f).take 32 = bytesBits (requestBytes code f) := rfl
  have hlength : (requestBits code f).length = 40 := rfl
  rw [isGoodFrame, hcrc, hbody, hlength, ofNat_bitsNat_byteBits]
  simp

theorem frameCode_requestBits : frameCode (requestBits code f) = code := (headBits code f.forced f.global).1

theorem frameFields_requestBits : frameFields f.moment (requestBits code f) = f := by
  obtain ⟨hforced, hrest⟩ := List.cons.inj (headBits code f.forced f.global).2
  obtain ⟨hglobal, -⟩ := List.cons.inj hrest
  rw [frameFields, Frame.mk.injEq]
  exact ⟨rfl, hforced, hglobal, ofNat_bitsNat_byteBits f.selector, ofNat_bitsNat_wordBits f.value⟩

end

/-- Settles O44: the frame is good, and its code and fields are those it was made of. -/
theorem aReceivedFrameSpellsItsRequest : Obligations.AReceivedFrameSpellsItsRequest := by
  intro r p f
  rw [frameCommand, isGoodFrame_requestBits, if_pos rfl, frameCode_requestBits, requestOfCode_code, frameFields_requestBits]

end Sys2Proof.Machine
end

section
/-! SUPPORT. What a request that reads leaves of the blocks and the ports: the attention that every event re-evaluates, a report put at one
port, the places whose marks are read. -/

namespace Sys2Proof.Machine

/-! ## Requests that change no block -/

/-- A request whose rule answers alone keeps the blocks and the transfer (R158, R168). -/
theorem State.takeRequest_only {s : State} {p : Port} {f : Frame} (code : BitVec 6) {rule : Device → PortUnit → Reply} {st : Status}
    {data : Word} (hopen : (s.ports.get p).loaded.isSome = true)
    (hrule : rule (s.dev.atMoment f.moment) (s.ports.get p) = Reply.only st data (s.dev.atMoment f.moment) (s.ports.get p)) :
    ∃ t : State, s.takeRequest p f code rule = .next t ∧ s.blocksKept t ∧ s.transferKept t p ∧
      s.answered t p { status := st, echo := code, data := data } := by
  obtain ⟨t, hexec, hdev, hanswered, hkept⟩ := State.takeRequest_open s p f code rule hopen (by rw [hrule]; rfl)
  rw [hrule] at hdev hanswered hkept
  exact ⟨t, hexec, by rw [State.blocksKept, hdev]; exact s.dev.kept_finish f.moment, hkept, hanswered⟩

/-! ## Attention at the end of an event (R181, R182) -/

theorem Device.attention_finish (d : Device) (p : Port) : (d.finish.report.get p).priority = d.finish.priorityOf p ∧
    ((d.finish.report.get p).lineLow = true ↔ (d.finish.report.get p).priority ≠ 0) := by
  obtain ⟨-, -, ha, hb⟩ := d.published_finish
  cases p
  · exact ha
  · exact hb

/-- Which causes are pending reads of the device the marks, the accepted map and the vehicle record (R180). -/
theorem Device.causePending_congr {d e : Device} {p : Port} (hplaces : e.places = d.places) (haccepted : e.accepted = d.accepted)
    (hvehicle : e.vehicle = d.vehicle) (hmark : (e.report.get p).globalMark = (d.report.get p).globalMark) (cause : Nat) :
    e.causePending p cause = d.causePending p cause := by
  unfold Device.causePending Device.anyMarked Device.mapPending
  rw [hplaces, haccepted, hvehicle, hmark]

/-! ## A report put at one port -/

section
variable (d : Device) (p : Port) (r : PortReport)

@[simp] theorem Device.setReport_same : (d.setReport p r).report.get p = r := Both.get_set_same ..
@[simp] theorem Device.setReport_other : (d.setReport p r).report.get p.other = d.report.get p.other := Both.get_set_other ..
theorem Device.setReport_get : d.setReport p (d.report.get p) = d := by cases p <;> rfl

/-- What the two reports agree on holds of both ports' reports after one is put. -/
theorem Device.setReport_congr {α : Type} (g : PortReport → α) (h : g r = g (d.report.get p)) (port : Port) :
    g ((d.setReport p r).report.get port) = g (d.report.get port) := by
  by_cases hp : port = p
  · subst hp; rw [Device.setReport_same, h]
  · exact congrArg g (Both.get_set_ne _ _ _ _ hp)

end

/-! ## The places whose marks are read (R162, R166) -/

/-- Which places a run of table words holds whole (R166). -/
theorem clearRun_getElem? (p : Port) (start count n i : Nat) (qs : List Place) :
    (clearRun p start count n qs)[i]? = qs[i]?.map (fun q =>
      if start ≤ 8 * (n + i) ∧ 8 * (n + i) + 8 ≤ start + count then q.clearRead p else q) := by
  induction qs generalizing n i with
  | nil => rfl
  | cons q qs ih =>
    cases i with
    | zero => rfl
    | succ i =>
      rw [clearRun, List.getElem?_cons_succ, ih, List.getElem?_cons_succ]
      simp only [show n + 1 + i = n + (i + 1) by omega]

theorem clearRun_length (p : Port) (start count n : Nat) (qs : List Place) : (clearRun p start count n qs).length = qs.length := by
  simpa using congrArg List.length (clearRun_ids p start count n qs)

/-- A place's marks cleared at one port: nothing else of it changes, and nothing at the other port. -/
theorem Place.clearRead_frame (q : Place) (p : Port) :
    q.clearRead p = { q with marks := (q.clearRead p).marks } ∧ (q.clearRead p).marks.get p.other = q.marks.get p.other :=
  ⟨rfl, Both.get_set_other ..⟩

theorem Place.clearFault_frame (q : Place) (p : Port) :
    q.clearFault p = { q with marks := (q.clearFault p).marks } ∧ (q.clearFault p).marks.get p.other = q.marks.get p.other :=
  ⟨rfl, Both.get_set_other ..⟩

/-! ## Any change kind (R163, R179) -/

/-- A port's set of a place is not empty exactly while some change kind is pending: every bit of it is a kind's. -/
theorem Place.anyMark_iff (q : Place) (p : Port) : (q.marks.get p != 0) = true ↔ ∃ k : ChangeKind, q.marked p k = true := by
  have hbits : ∀ i < 7, ∃ k : ChangeKind, k.bit = i := by
    intro i hi
    interval_cases i
    exacts [⟨.cls, rfl⟩, ⟨.restraint, rfl⟩, ⟨.belt, rfl⟩, ⟨.reminder, rfl⟩, ⟨.fault, rfl⟩, ⟨.cal, rfl⟩, ⟨.map, rfl⟩]
  rw [bne_iff_ne]
  refine ⟨fun hne => ?_, fun ⟨k, hk⟩ hzero => ?_⟩
  · by_contra hnone
    refine hne (BitVec.eq_of_getLsbD_eq fun i hi => ?_)
    obtain ⟨k, rfl⟩ := hbits i hi
    rw [BitVec.ofNat_eq_ofNat, BitVec.getLsbD_zero]
    exact Bool.eq_false_iff.2 fun hk => hnone ⟨k, hk⟩
  · rw [Place.marked, hzero, BitVec.ofNat_eq_ofNat, BitVec.getLsbD_zero] at hk
    cases hk

/-- A set of place numbers as bits, read at a number of 0..15. -/
theorem numberSet_places {ps : List Place} {g : Place → Bool} {n : Nat} (hn : n < 16) :
    (numberSet 0 (ps.map g)).getLsbD n = true ↔ ∃ q : Place, ps[n]? = some q ∧ g q = true := by
  rw [numberSet_getLsbD 0 _ n hn]
  cases hq : ps[n]? with
  | none => simp [hq]
  | some q => simp [hq]

end Sys2Proof.Machine
end

section
/-! PROOF. The requests that read: READ_NEXT (O28), STATUS (O29), PLACE_STATUS (O30), TABLE_READ (O31), CHANGES and REMINDER_SUMMARY
(O33). -/

namespace Sys2Proof.Machine

section
variable (p : Port) (f : Frame) (d : Device) (u : PortUnit)

/-! ## READ_NEXT (R167) -/

theorem readNextRule_dev : (readNextRule d u).dev = d := by unfold readNextRule; split <;> rfl
theorem readNextRule_highSeen : (readNextRule d u).unit.highSeen = u.highSeen := by unfold readNextRule; split <;> rfl
theorem readNextRule_buffer : (readNextRule d u).unit.buffer = u.buffer := by unfold readNextRule; split <;> rfl

theorem readNextRule_empty {u : PortUnit} (h : u.remaining = 0) : readNextRule d u = Reply.only .noData 0 d u := if_pos h

/-- The next word stands in front of the words that remain after it. -/
theorem readNextRule_word {u : PortUnit} {n : Nat} {before after : List Word} {word : Word} (hleft : u.remaining = n + 1)
    (hbuffer : u.buffer = before ++ word :: after) (hafter : after.length = n) :
    readNextRule d u = { status := .ok, data := word, dev := d, unit := { u with cursor := u.cursor + 1, remaining := n } } := by
  have hword : u.buffer.getD (u.buffer.length - u.remaining) 0 = word := by
    have hfront : u.buffer.length - u.remaining = before.length := by
      rw [hbuffer, hleft, List.length_append, List.length_cons, hafter]
      omega
    rw [hfront, hbuffer, List.getD_eq_getElem?_getD, List.getElem?_append_right le_rfl, Nat.sub_self]
    rfl
  rw [readNextRule, if_neg (by omega), hword, hleft]
  rfl

/-! ## STATUS (R161) and REMINDER_SUMMARY (R164) -/

theorem statusRule_eq : statusRule p f d u = Reply.only (if f.selector.toNat < 8 then .ok else .range)
    (if f.selector.toNat < 8 then d.globalWord p f.selector.toNat else 0) d u := by
  unfold statusRule
  split <;> rfl

theorem reminderSummaryRule_eq : reminderSummaryRule f d u = Reply.only (if f.selector.toNat ≤ 1 then .ok else .range)
    (if f.selector.toNat = 0 then d.globalWord p 6 else if f.selector.toNat = 1 then d.globalWord p 7 else 0) d u := by
  have hzero : f.selector = 0 ↔ f.selector.toNat = 0 := (BitVec.toNat_inj (y := 0#8)).symm
  have hone : f.selector = 1 ↔ f.selector.toNat = 1 := (BitVec.toNat_inj (y := 1#8)).symm
  unfold reminderSummaryRule
  simp only [hzero, hone]
  split
  · rename_i h; rw [if_pos (by omega)]; rfl
  · split
    · rename_i h; rw [if_pos (by omega)]; rfl
    · rw [if_neg (by omega)]

/-! ## PLACE_STATUS (R162) -/

theorem placeStatusRule_refused (h : d.places.length ≤ f.selector.toNat) : placeStatusRule p f d u = Reply.only .range 0 d u := by
  rw [placeStatusRule, List.getElem?_eq_none h]

theorem placeStatusRule_ok {d : Device} {q : Place} (h : d.places[f.selector.toNat]? = some q) : placeStatusRule p f d u = {
    status := .ok, data := d.placeWord0 q, unit := u, dev := d.modifyPlace f.selector.toNat (fun q => q.clearRead p) } := by
  rw [placeStatusRule, h]

/-! ## TABLE_READ (R166) -/

theorem tableReadRule_refused (h : f.value.toNat = 0 ∨ 64 < f.value.toNat ∨ 184 < f.selector.toNat + f.value.toNat) :
    tableReadRule p f d u = Reply.only .range 0 d u := if_pos h

theorem tableReadRule_ok (h : ¬ (f.value.toNat = 0 ∨ 64 < f.value.toNat ∨ 184 < f.selector.toNat + f.value.toNat)) :
    tableReadRule p f d u = {
      status := .ok, data := f.value
      dev := { d with places := clearRun p f.selector.toNat f.value.toNat 0 d.places }
      unit := { u with buffer := d.tableRun p f.selector.toNat f.value.toNat, cursor := f.selector.toNat
                       remaining := f.value.toNat } } := if_neg h

theorem tableReadRule_highSeen : (tableReadRule p f d u).unit.highSeen = u.highSeen := by
  unfold tableReadRule
  dsimp only
  split <;> rfl

theorem Device.tableRun_length (start count : Nat) : (d.tableRun p start count).length = count := by simp [Device.tableRun]

theorem Device.tableRun_getElem? {start count i : Nat} (h : i < count) :
    (d.tableRun p start count)[i]? = some (d.tableWord p (start + i)) := by
  simp [Device.tableRun, h]

/-- A place after a snapshot: its marks but FAULT are cleared at the port exactly when it lies whole in the run. -/
theorem clearRun_place {start count n : Nat} {qs : List Place} {q q' : Place} (hq : qs[n]? = some q)
    (hq' : (clearRun p start count 0 qs)[n]? = some q') :
    q' = { q with marks := q'.marks } ∧ q'.marks.get p.other = q.marks.get p.other ∧ ∀ k : ChangeKind,
      q'.marked p k = (q.marked p k && (decide (k = .fault) || !decide (start ≤ 8 * n ∧ 8 * n + 8 ≤ start + count))) := by
  rw [clearRun_getElem?, hq, Option.map_some, Nat.zero_add] at hq'
  obtain rfl := Option.some.inj hq'
  split
  · rename_i hwhole
    obtain ⟨hrest, hother⟩ := q.clearRead_frame p
    exact ⟨hrest, hother, fun k => by rw [Place.marked_clearRead]; simp [hwhole]⟩
  · rename_i hpart
    exact ⟨rfl, rfl, fun k => by simp [hpart]⟩

end

/-! ## The statements -/

/-- Settles O28: `readNextRule_empty` and `readNextRule_word`, and that the rule never touches the blocks or the buffer. -/
theorem readNextShiftsTheSnapshotOut : Obligations.ReadNextShiftsTheSnapshotOut := by
  intro p f s hopen
  obtain ⟨t, hexec, hdev, hanswered, hkept⟩ :=
    State.takeRequest_open s p f Request.readNext.code readNextRule hopen (readNextRule_highSeen _ _)
  obtain ⟨hbuffer, hcursor, hremaining⟩ := hkept
  rw [readNextRule_dev] at hdev
  rw [readNextRule_buffer] at hbuffer
  refine ⟨t, hexec, by rw [State.blocksKept, hdev]; exact s.dev.kept_finish f.moment, hbuffer, fun hnone => ?_,
    fun n before after word hleft hwords hafter => ?_⟩
  · rw [readNextRule_empty _ hnone] at hanswered hcursor hremaining
    exact ⟨hanswered, hbuffer, hcursor, hremaining⟩
  · rw [readNextRule_word _ hleft hwords hafter] at hanswered hcursor hremaining
    exact ⟨hanswered, hcursor, hremaining⟩

/-- Settles O30: `placeStatusRule_ok` for a listed number, `placeStatusRule_refused` past the list; attention follows as at every
event. -/
theorem placeStatusReadsAndClearsAtOnePort : Obligations.PlaceStatusReadsAndClearsAtOnePort := by
  intro p f s hopen
  have hplaces : (s.dev.atMoment f.moment).places = s.dev.places := Device.atMoment_places ..
  obtain ⟨t, hexec, hdev, hanswered, hkept⟩ :=
    State.takeRequest_open s p f Request.placeStatus.code (placeStatusRule p f) hopen (by rw [placeStatusRule_unit])
  rw [placeStatusRule_unit] at hkept
  obtain ⟨hpriority, hline⟩ := (placeStatusRule p f (s.dev.atMoment f.moment) (s.ports.get p)).dev.attention_finish p
  rw [← hdev] at hpriority hline
  refine ⟨t, hexec, hkept, hpriority, hline, fun hpast => ?_, fun q hq => ?_⟩
  · rw [placeStatusRule_refused _ _ _ _ (by rwa [hplaces])] at hdev hanswered
    exact ⟨hanswered, by rw [State.blocksKept, hdev]; exact s.dev.kept_finish f.moment⟩
  · rw [placeStatusRule_ok _ _ _ (by rwa [hplaces])] at hdev hanswered
    rw [Device.atMoment_placeWord0] at hanswered
    obtain ⟨hrest, hother⟩ := q.clearRead_frame p
    refine ⟨hanswered, q.clearRead p, ?_, hrest, hother, q.marked_clearRead p⟩
    rw [hdev, Device.finish_places, Device.modifyPlace_places, hplaces]
    exact modify_eq_set _ _ _ _ hq

/-- Settles O31: `tableReadRule_ok` and `tableReadRule_refused`; `clearRun_place` says what the snapshot makes of each place. -/
theorem tableReadTakesASnapshot : Obligations.TableReadTakesASnapshot := by
  intro p f s hopen
  obtain ⟨t, hexec, hdev, hanswered, hbuffer, hcursor, hremaining⟩ :=
    State.takeRequest_open s p f Request.tableRead.code (tableReadRule p f) hopen (tableReadRule_highSeen ..)
  refine ⟨t, hexec, fun hbad => ?_, fun hsome hfits hinside => ?_⟩
  · rw [tableReadRule_refused _ _ _ _ hbad] at hdev hanswered hbuffer hcursor hremaining
    exact ⟨hanswered, ⟨hbuffer, hcursor, hremaining⟩, by rw [State.blocksKept, hdev]; exact s.dev.kept_finish f.moment⟩
  · rw [tableReadRule_ok _ _ _ _ (by omega)] at hdev hanswered hbuffer hcursor hremaining
    dsimp only at hanswered hbuffer hcursor hremaining
    have hplaces : t.dev.places = clearRun p f.selector.toNat f.value.toNat 0 s.dev.places := by
      rw [hdev, Device.finish_places, Device.atMoment_places]
    refine ⟨hanswered, by rw [hbuffer, Device.tableRun_length], fun i hi => ?_, hcursor, hremaining, ?_, fun n q q' hq hq' => ?_⟩
    · rw [hbuffer, Device.tableRun_getElem? _ _ hi, Device.atMoment_tableWord]
    · rw [hplaces, clearRun_length]
    · rw [hplaces] at hq'
      exact clearRun_place p hq hq'

/-- Settles O33: CHANGES answers the set of `Place.anyMark_iff`; REMINDER_SUMMARY the words 6 and 7 of the global record. -/
theorem changesAndReminderSummaryReadAndClearNothing : Obligations.ChangesAndReminderSummaryReadAndClearNothing := by
  constructor
  · intro p f s hopen
    obtain ⟨t, hexec, hblocks, hkept, hanswered⟩ :=
      State.takeRequest_only Request.changes.code (rule := changesRule p) hopen rfl
    refine ⟨t, _, hexec, hblocks, hkept, hanswered, fun n hn => ?_⟩
    rw [Device.atMoment_places, numberSet_places hn]
    simp only [Place.anyMark_iff]
  · intro p f s hopen
    obtain ⟨t, hexec, hblocks, hkept, hanswered⟩ :=
      State.takeRequest_only Request.reminderSummary.code hopen (reminderSummaryRule_eq p f (s.dev.atMoment f.moment) (s.ports.get p))
    simp only [Device.atMoment_globalWord] at hanswered
    have hlit : ∀ q : Place, q.lampLit = true ↔ q.stage = .lamp ∨ q.stage = .chime ∨ q.stage = .lapsed := fun q => by
      rw [Place.lampLit]; cases q.stage <;> decide
    refine ⟨t, hexec, hblocks, hkept, fun hzero => ?_, fun hlaw n hn => ?_, fun hone => ?_, fun hmany => ?_⟩
    · rw [if_pos (by omega), if_pos hzero] at hanswered
      exact hanswered
    · obtain ⟨hagg, -⟩ := hlaw
      have hmask : s.dev.globalWord p 6 = lampMaskOf s.dev.places := congrArg Aggregates.lampMask hagg
      rw [hmask, lampMaskOf, numberSet_places hn]
      simp only [hlit]
    · rw [if_pos (by omega), if_neg (by omega), if_pos hone] at hanswered
      exact hanswered
    · rw [if_neg (by omega), if_neg (by omega), if_neg (by omega)] at hanswered
      exact hanswered

end Sys2Proof.Machine
end

section
/-! PROOF. The words that a port reads: the layout of the place, station and global words (O32), and STATUS (O29). -/

namespace Sys2Proof.Machine

/-! ## Fields of a word (R183) -/

/-- The fields of word 0 of a place record, high to low. -/
theorem word0_fields (cls : BitVec 3) (mode : BitVec 1) (verdict : BitVec 2) (stage : BitVec 3) (buckle : BitVec 2)
    (accepted fresh : Bool) (cal : BitVec 3) :
    let w : Word := cls ++ mode ++ verdict ++ stage ++ buckle ++ BitVec.ofBool accepted ++ BitVec.ofBool fresh ++ cal
    w.extractLsb' 13 3 = cls ∧ w.getLsbD 12 = mode.getLsbD 0 ∧ w.extractLsb' 10 2 = verdict ∧ w.extractLsb' 7 3 = stage ∧
    w.extractLsb' 5 2 = buckle ∧ w.getLsbD 4 = accepted ∧ w.getLsbD 3 = fresh ∧ w.extractLsb' 0 3 = cal := by
  simp (disch := decide) [-Nat.reduceAdd, -BitVec.getLsbD_eq_getElem, BitVec.getLsbD_append, BitVec.extractLsb'_append_eq_of_add_le,
    BitVec.extractLsb'_append_eq_of_le, BitVec.extractLsb'_eq_self]

/-- The fields of word 3 of a place record. -/
theorem word3_fields (right left : BitVec 2) (indefinite degraded atLeast : Bool) (conc : BitVec 9) :
    let w : Word := right ++ left ++ BitVec.ofBool indefinite ++ BitVec.ofBool degraded ++ BitVec.ofBool atLeast ++ conc
    w.extractLsb' 14 2 = right ∧ w.extractLsb' 12 2 = left ∧ w.getLsbD 11 = indefinite ∧ w.getLsbD 10 = degraded ∧
    w.getLsbD 9 = atLeast ∧ w.extractLsb' 0 9 = conc := by
  simp (disch := decide) [-Nat.reduceAdd, -BitVec.getLsbD_eq_getElem, BitVec.getLsbD_append, BitVec.extractLsb'_append_eq_of_add_le,
    BitVec.extractLsb'_append_eq_of_le, BitVec.extractLsb'_eq_self]

/-- The fields of word 4 of a place record. -/
theorem word4_fields (station : BitVec 4) (seat : BitVec 2) (restraint child reminder : Bool) (pending : BitVec 3)
    (count : BitVec 4) :
    let w : Word := station ++ seat ++ BitVec.ofBool restraint ++ BitVec.ofBool child ++ BitVec.ofBool reminder ++ pending ++ count
    w.extractLsb' 12 4 = station ∧ w.extractLsb' 10 2 = seat ∧ w.getLsbD 9 = restraint ∧ w.getLsbD 8 = child ∧
    w.getLsbD 7 = reminder ∧ w.extractLsb' 4 3 = pending ∧ w.extractLsb' 0 4 = count := by
  simp (disch := decide) [-Nat.reduceAdd, -BitVec.getLsbD_eq_getElem, BitVec.getLsbD_append, BitVec.extractLsb'_append_eq_of_add_le,
    BitVec.extractLsb'_append_eq_of_le, BitVec.extractLsb'_eq_self]

/-- The fields of word 0 of a station record. -/
theorem stationWord0_fields (count : BitVec 2) (state : BitVec 3) :
    let w : Word := 0#11 ++ count ++ state
    w.extractLsb' 3 2 = count ∧ w.extractLsb' 0 3 = state ∧ w.extractLsb' 5 11 = 0 := by
  simp (disch := decide) [-Nat.reduceAdd, BitVec.extractLsb'_append_eq_of_add_le, BitVec.extractLsb'_append_eq_of_le,
    BitVec.extractLsb'_eq_self]

/-- The fields of the vehicle state word. -/
theorem vehicleWord_fields (ignition lapsed unknown : Bool) (speed : BitVec 8) :
    let w : Word := BitVec.ofBool ignition ++ 0#5 ++ BitVec.ofBool lapsed ++ BitVec.ofBool unknown ++ speed
    w.getLsbD 15 = ignition ∧ w.getLsbD 9 = lapsed ∧ w.getLsbD 8 = unknown ∧ w.extractLsb' 0 8 = speed ∧ w.extractLsb' 10 5 = 0 := by
  simp (disch := decide) [-Nat.reduceAdd, -BitVec.getLsbD_eq_getElem, BitVec.getLsbD_append, BitVec.extractLsb'_append_eq_of_add_le,
    BitVec.extractLsb'_append_eq_of_le, BitVec.extractLsb'_eq_self]

/-- The fields of the word of chime demand and unfastened count: 15 bits spell the count's five. -/
theorem aggregatesWord_fields (chime : Bool) (n : Nat) :
    let w : Word := BitVec.ofBool chime ++ 0#10 ++ BitVec.ofNat 5 n
    w.getLsbD 15 = chime ∧ w.extractLsb' 0 15 = BitVec.ofNat 15 (n % 32) := by
  have hfields : ∀ (b : Bool) (v : BitVec 5), let w : Word := BitVec.ofBool b ++ 0#10 ++ v
      w.getLsbD 15 = b ∧ w.extractLsb' 0 15 = v.setWidth 15 := by decide
  obtain ⟨hchime, hcount⟩ := hfields chime (BitVec.ofNat 5 n)
  refine ⟨hchime, hcount.trans (BitVec.eq_of_toNat_eq ?_)⟩
  rw [BitVec.toNat_setWidth, BitVec.toNat_ofNat, BitVec.toNat_ofNat]

/-- A set of faults reads bit by bit, with 0 above its twelve bits. -/
theorem faultWord_fields (s : BitVec 12) :
    (∀ k : FaultKind, (s.setWidth 16).getLsbD k.bit = s.getLsbD k.bit) ∧ (s.setWidth 16).extractLsb' 12 4 = 0 := by
  refine ⟨fun k => ?_, BitVec.eq_of_getLsbD_eq fun i hi => ?_⟩
  · have hk : k.bit < 16 := k.bit_lt.trans (by decide)
    simp [BitVec.getLsbD_setWidth, -BitVec.getLsbD_eq_getElem, hk]
  · simp [BitVec.getLsbD_setWidth, BitVec.getLsbD_extractLsb', -BitVec.getLsbD_eq_getElem]

/-! ## The table's words by their place (R165) -/

section
variable (d : Device) (port : Port)

theorem Device.tableWord_place {n k : Nat} {p : Place} (hn : n < 16) (hk : k < 8) (hp : d.places[n]? = some p) :
    d.tableWord port (8 * n + k) = d.placeWord port p k := by
  rw [Device.tableWord, if_pos (by omega), show (8 * n + k) / 8 = n by omega, hp, show (8 * n + k) % 8 = k by omega]

theorem Device.tableWord_pastList {i : Nat} (hi : i < 128) (hpast : d.places.length ≤ i / 8) : d.tableWord port i = 0 := by
  rw [Device.tableWord, if_pos hi, List.getElem?_eq_none hpast]

theorem Device.tableWord_station (c : Code) {k : Nat} (hk : k < 4) :
    d.tableWord port (128 + 4 * c.val + k) = (d.station c).word k := by
  have hc := c.isLt
  have hcode : (128 + 4 * c.val + k - 128) / 4 = c.val := by omega
  rw [Device.tableWord, if_neg (by omega), dif_pos (by omega), show (128 + 4 * c.val + k - 128) % 4 = k by omega]
  simp only [hcode]

theorem Device.tableWord_global (k : Nat) : d.tableWord port (176 + k) = d.globalWord port k := by
  rw [Device.tableWord, if_neg (by omega), dif_neg (by omega), Nat.add_sub_cancel_left]

/-- Only the sticky words read differently at the two ports. -/
theorem Device.placeWord_ports {w : Nat} (hw : w ≠ 6) (p : Place) : d.placeWord .a p w = d.placeWord .b p w := by
  unfold Device.placeWord
  split <;> first | rfl | exact absurd rfl hw

theorem Device.globalWord_ports {w : Nat} (hw : w ≠ 4) : d.globalWord .a w = d.globalWord .b w := by
  unfold Device.globalWord
  split <;> first | rfl | exact absurd rfl hw

theorem Device.tableWord_ports {i : Nat} (hplace : i < 128 → i % 8 ≠ 6) (hglobal : i ≠ 180) :
    d.tableWord .a i = d.tableWord .b i := by
  unfold Device.tableWord
  split
  · rename_i hi
    split
    · exact d.placeWord_ports (hplace hi) _
    · rfl
  · split
    · rfl
    · exact d.globalWord_ports (by omega)

end

/-! ## The words of the global record (R161) -/

theorem Device.globalWord_zero (d : Device) (p : Port) : (d.globalWord p 0).toNat =
    (match d.mode with | .startUp => 0 | .run => 1 | .frozen => 2) + (if d.startupDone then 4 else 0) := by
  rw [Device.globalWord]
  cases d.mode <;> cases d.startupDone <;> rfl

/-! ## The words of a place record -/

/-- Word 0: class and child-seat mode, verdict, stage, buckle, accepted, fresh, calibration. -/
theorem Device.placeWord0_layout (d : Device) (p : Place) :
    let w := d.placeWord0 p
    w.extractLsb' 13 3 = p.reported.code ∧ w.getLsbD 12 = decide (p.reported = .childBelted) ∧
    w.extractLsb' 10 2 = p.verdict.code ∧ w.extractLsb' 7 3 = p.stage.code ∧ w.extractLsb' 5 2 = p.buckle.code ∧
    w.getLsbD 4 = decide (p.id ∈ d.accepted) ∧ w.getLsbD 3 = p.fresh ∧ w.extractLsb' 0 3 = p.cal.code := by
  obtain ⟨hclass, hmode, hverdict, hstage, hbuckle, haccepted, hfresh, hcal⟩ := word0_fields p.reported.code p.reported.modeBit
    p.verdict.code p.stage.code p.buckle.code (d.accepted.contains p.id) p.fresh p.cal.code
  refine ⟨hclass, hmode.trans ?_, hverdict, hstage, hbuckle, haccepted.trans (List.contains_eq_mem ..), hfresh, hcal⟩
  cases p.reported <;> rfl

/-- The faults of words 5 and 6, each with its bit. -/
theorem faultBits : ∀ b ∈ [(0, FaultKind.cellOpen), (1, .cellsOpen), (2, .cellSat), (3, .anchorFault), (4, .anchorPartial),
    (5, .buckleFault), (6, .cellCal), (7, .linkPattern), (8, .nodeRestart), (9, .nodeSilent), (10, .driftLimit),
    (11, .calStoreFail)], b.1 = b.2.bit := by decide

/-! ## The statements -/

/-- Settles O29: the rule answers with the word that the state stands for; the fields of words 0 to 7. -/
theorem statusReadsTheGlobalRecordOfTheState : Obligations.StatusReadsTheGlobalRecordOfTheState := by
  constructor
  · intro p f s hopen
    obtain ⟨t, hexec, hblocks, hkept, hanswered⟩ :=
      State.takeRequest_only Request.status.code hopen (statusRule_eq p f (s.dev.atMoment f.moment) (s.ports.get p))
    rw [Device.atMoment_globalWord] at hanswered
    refine ⟨t, hexec, hblocks, hkept, fun hword => ?_, fun hpast => ?_⟩
    · rw [if_pos hword, if_pos hword] at hanswered
      exact hanswered
    · rw [if_neg (by omega), if_neg (by omega)] at hanswered
      exact hanswered
  · intro d p
    obtain ⟨hignition, hlapsed, hunknown, hspeed, hzeros⟩ := vehicleWord_fields d.vehicle.ignition d.vehicle.lapsed
      d.vehicle.speed.isNone (BitVec.ofNat 8 (d.vehicle.speed.getD 0))
    obtain ⟨hchime, hcount⟩ := aggregatesWord_fields d.agg.chime d.agg.unfastened
    exact ⟨d.globalWord_zero p, BitVec.toNat_setWidth_of_le (by decide), BitVec.toNat_setWidth_of_le (by decide),
      BitVec.toNat_setWidth_of_le (by decide), BitVec.toNat_setWidth_of_le (by decide), hignition, hlapsed, hunknown, hspeed, hzeros,
      rfl, hchime, hcount⟩

/-- Settles O32: `Device.tableWord_place`, `Device.tableWord_station` and `Device.tableWord_global` say where each word stands, the lemmas
about its fields how it is laid out. -/
theorem theTableWordsStandForTheRecords : Obligations.TheTableWordsStandForTheRecords := by
  refine ⟨fun d port n p hn hp => ?places, fun d port i hi hpast => d.tableWord_pastList port hi hpast,
    fun d port c => ?stations, fun d port k _ => d.tableWord_global port k, fun d i hplace hglobal => d.tableWord_ports hplace hglobal⟩
  case places =>
    intro w
    have hword : ∀ k < 8, w k = d.placeWord port p k := fun k hk => d.tableWord_place port hn hk hp
    rw [hword 0 (by decide), hword 1 (by decide), hword 2 (by decide), hword 3 (by decide), hword 4 (by decide),
      hword 5 (by decide), hword 6 (by decide), hword 7 (by decide)]
    obtain ⟨hclass, hmode, hverdict, hstage, hbuckle, haccepted, hfresh, hcal⟩ := d.placeWord0_layout p
    obtain ⟨hright, hleft, hindefinite, hdegraded, hatLeast, hconc⟩ := word3_fields p.rightAnchor.code p.leftAnchor.code
      p.total.isNone p.degraded p.atLeast (BitVec.ofNat 9 p.conc)
    obtain ⟨hstation, hseat, hrestraint, hchild, hreminder, hpending, hcount⟩ := word4_fields
      (BitVec.ofNat 4 (p.id.station.val + 1)) (BitVec.ofNat 2 p.id.seat.val) p.policy.restraintFitted p.policy.childReminder
      p.policy.reminderEnable (pendingCode p.pendingClass) (BitVec.ofNat 4 p.count)
    obtain ⟨hlive, hliveZeros⟩ := faultWord_fields p.live
    obtain ⟨hsticky, hstickyZeros⟩ := faultWord_fields (p.sticky.get port)
    refine ⟨rfl, hclass.trans ?cls, hmode, hverdict.trans ?verdict, hstage.trans ?stage, hbuckle.trans ?buckle, haccepted, hfresh,
      hcal.trans ?cal, ?filter, ?total, hright.trans ?right, hleft.trans ?left, hindefinite, hdegraded, hatLeast, hconc, hstation,
      hseat, hrestraint, hchild, hreminder, hpending.trans ?pending, hcount, fun b hb => ?faults, hliveZeros, hstickyZeros, rfl⟩
    case cls => cases p.reported <;> rfl
    case verdict => cases p.verdict <;> rfl
    case stage => cases p.stage <;> rfl
    case buckle => cases p.buckle <;> rfl
    case cal => cases p.cal with
      | running run => rfl
      | ended how => cases how <;> rfl
    case filter =>
      change p.word1 = _
      rw [Place.word1]
      cases p.filter <;> rfl
    case total =>
      change p.word2 = _
      rw [Place.word2]
      cases p.total <;> rfl
    case right => cases p.rightAnchor <;> rfl
    case left => cases p.leftAnchor <;> rfl
    case pending => cases p.pendingClass with
      | none => rfl
      | some c => cases c <;> rfl
    case faults =>
      rw [faultBits b hb]
      exact ⟨hlive b.2, hsticky b.2⟩
  case stations =>
    dsimp only
    rw [d.tableWord_station port c (by decide : 0 < 4), d.tableWord_station port c (by decide : 1 < 4),
      d.tableWord_station port c (by decide : 2 < 4), d.tableWord_station port c (by decide : 3 < 4)]
    obtain ⟨hcount, hstate, hzeros⟩ := stationWord0_fields (BitVec.ofNat 2 ((d.station c).count.getD 0)) (d.station c).state.code
    refine ⟨hcount, hstate.trans ?_, hzeros, rfl, rfl, rfl⟩
    cases (d.station c).state <;> rfl

end Sys2Proof.Machine
end

section
/-! PROOF. The fault requests FAULTS_READ and FAULTS_CLEAR (O34), and SET_ATTN (O37). -/

namespace Sys2Proof.Machine

/-! ## The two fault requests as one rule (R171, R176, R177) -/

/-- What FAULTS_READ and FAULTS_CLEAR share: the answer is the port's sticky set, of the part or of a place; the part's set becomes
`after` with the port's global mark cleared, the place becomes `change` of it. -/
def faultsRule (p : Port) (f : Frame) (after : Device → BitVec 4) (change : Place → Place) (d : Device) (u : PortUnit) : Reply :=
  if f.global then
    { status := .ok, data := (d.report.get p).stickyGlobal.setWidth 16, unit := u
      dev := d.setReport p { d.report.get p with globalMark := false, stickyGlobal := after d } }
  else
    match d.places[f.selector.toNat]? with
    | some place =>
      { status := .ok, data := (place.sticky.get p).setWidth 16, unit := u, dev := d.modifyPlace f.selector.toNat change }
    | none => Reply.only .range 0 d u

theorem faultsReadRule_eq (p : Port) (f : Frame) :
    faultsReadRule p f = faultsRule p f (fun d => (d.report.get p).stickyGlobal) (fun q => q.clearFault p) := rfl

theorem faultsClearRule_eq (p : Port) (f : Frame) :
    faultsClearRule p f = faultsRule p f Device.live (fun q => (q.clearSticky p).clearFault p) := rfl

section
variable {p : Port} {f : Frame} {after : Device → BitVec 4} {change : Place → Place} (d : Device) (u : PortUnit)

theorem faultsRule_global (h : f.global = true) : faultsRule p f after change d u = {
    status := .ok, data := (d.report.get p).stickyGlobal.setWidth 16, unit := u
    dev := d.setReport p { d.report.get p with globalMark := false, stickyGlobal := after d } } := if_pos h

theorem faultsRule_place {d : Device} {q : Place} (h : f.global = false) (hq : d.places[f.selector.toNat]? = some q) :
    faultsRule p f after change d u = {
      status := .ok, data := (q.sticky.get p).setWidth 16, unit := u, dev := d.modifyPlace f.selector.toNat change } := by
  rw [faultsRule, if_neg (by rw [h]; decide), hq]

theorem faultsRule_refused {d : Device} (h : f.global = false) (hpast : d.places.length ≤ f.selector.toNat) :
    faultsRule p f after change d u = Reply.only .range 0 d u := by
  rw [faultsRule, if_neg (by rw [h]; decide), List.getElem?_eq_none hpast]

theorem faultsRule_unit : (faultsRule p f after change d u).unit = u := by
  unfold faultsRule
  split
  · rfl
  · split <;> rfl

theorem faultsRule_live : (faultsRule p f after change d u).dev.live = d.live := by
  unfold faultsRule
  split
  · rfl
  · split <;> rfl

theorem faultsRule_other : (faultsRule p f after change d u).dev.report.get p.other = d.report.get p.other := by
  unfold faultsRule
  split
  · exact d.setReport_other p _
  · split <;> rfl

/-- A rule that leaves the part's sticky set leaves it at both ports. -/
theorem faultsRule_stickyGlobal (hafter : after d = (d.report.get p).stickyGlobal) (port : Port) :
    ((faultsRule p f after change d u).dev.report.get port).stickyGlobal = (d.report.get port).stickyGlobal := by
  unfold faultsRule
  split
  · exact d.setReport_congr p _ PortReport.stickyGlobal hafter port
  · split <;> rfl

end

/-- A place after FAULTS_CLEAR: its sticky set at the port is its live set, FAULT is cleared there, and nothing else changes (R177). -/
theorem Place.cleared_frame (q : Place) (p : Port) (q' : Place) (h : q' = (q.clearSticky p).clearFault p) :
    q' = { q with marks := q'.marks, sticky := q'.sticky } ∧ q'.sticky.get p = q.live ∧
    q'.sticky.get p.other = q.sticky.get p.other ∧ q'.marks.get p.other = q.marks.get p.other ∧
    ∀ k : ChangeKind, q'.marked p k = (q.marked p k && decide (k ≠ .fault)) := by
  subst h
  exact ⟨rfl, Both.get_set_same .., Both.get_set_other .., Both.get_set_other .., (q.clearSticky p).marked_clearFault p⟩

/-- What a fault request leaves, for both of them. -/
theorem State.takeFaultRequest {p : Port} {f : Frame} {after : Device → BitVec 4} {change : Place → Place} (code : BitVec 6) {s : State}
    (hopen : (s.ports.get p).loaded.isSome = true) :
    ∃ t : State, s.takeRequest p f code (faultsRule p f after change) = .next t ∧ s.transferKept t p ∧ t.dev.live = s.dev.live ∧
      (t.dev.report.get p.other).stickyGlobal = (s.dev.report.get p.other).stickyGlobal ∧
      (t.dev.report.get p.other).globalMark = (s.dev.report.get p.other).globalMark ∧
      (after (s.dev.atMoment f.moment) = (s.dev.report.get p).stickyGlobal →
        ∀ port : Port, (t.dev.report.get port).stickyGlobal = (s.dev.report.get port).stickyGlobal) ∧
      (f.global = true →
        s.answered t p { status := .ok, echo := code, data := (s.dev.report.get p).stickyGlobal.setWidth 16 } ∧
        (t.dev.report.get p).stickyGlobal = after (s.dev.atMoment f.moment) ∧
        (t.dev.report.get p).globalMark = false ∧ t.dev.places = s.dev.places) ∧
      (f.global = false → s.dev.places.length ≤ f.selector.toNat →
        s.answered t p { status := .range, echo := code, data := 0 } ∧ s.blocksKept t) ∧
      ∀ q : Place, f.global = false → s.dev.places[f.selector.toNat]? = some q →
        s.answered t p { status := .ok, echo := code, data := (q.sticky.get p).setWidth 16 } ∧
        t.dev.places = s.dev.places.set f.selector.toNat (change q) := by
  obtain ⟨t, hexec, hdev, hanswered, hkept⟩ :=
    State.takeRequest_open s p f code (faultsRule p f after change) hopen (by rw [faultsRule_unit])
  rw [faultsRule_unit] at hkept
  refine ⟨t, hexec, hkept, ?_, ?_, ?_, fun hafter port => ?_, fun hglobal => ?_, fun hplace hpast => ?_, fun q hplace hq => ?_⟩
  · rw [hdev, Device.finish_live, faultsRule_live, Device.atMoment_live]
  · rw [hdev, Device.finish_stickyGlobal, faultsRule_other, Device.atMoment_report]
  · rw [hdev, Device.finish_globalMark, faultsRule_other, Device.atMoment_report]
  · rw [hdev, Device.finish_stickyGlobal, faultsRule_stickyGlobal _ _ (by rw [hafter, Device.atMoment_report]), Device.atMoment_report]
  · rw [faultsRule_global _ _ hglobal] at hdev hanswered
    rw [Device.atMoment_report] at hanswered
    refine ⟨hanswered, ?_, ?_, ?_⟩
    · rw [hdev, Device.finish_stickyGlobal, Device.setReport_same]
    · rw [hdev, Device.finish_globalMark, Device.setReport_same]
    · rw [hdev, Device.finish_places]; exact Device.atMoment_places ..
  · rw [faultsRule_refused _ hplace (by rwa [Device.atMoment_places])] at hdev hanswered
    exact ⟨hanswered, by rw [State.blocksKept, hdev]; exact s.dev.kept_finish f.moment⟩
  · rw [faultsRule_place _ hplace (by rwa [Device.atMoment_places])] at hdev hanswered
    refine ⟨hanswered, ?_⟩
    rw [hdev, Device.finish_places, Device.modifyPlace_places, Device.atMoment_places]
    exact modify_eq_set _ _ _ _ hq

/-- Settles O34: both requests are `faultsRule`, whose lemma `State.takeFaultRequest` says what they leave; `Place.clearFault_frame` and
`Place.cleared_frame` say what they make of the place. -/
theorem faultsReadAndFaultsClearActAtOnePort : Obligations.FaultsReadAndFaultsClearActAtOnePort := by
  constructor
  · intro p f s hopen
    obtain ⟨t, hexec, hkept, hlive, -, hmark, hsticky, hglobal, hpast, hplace⟩ :=
      State.takeFaultRequest (f := f) (after := fun d => (d.report.get p).stickyGlobal) (change := fun q => q.clearFault p)
        Request.faultsRead.code hopen
    refine ⟨t, by rw [← faultsReadRule_eq] at hexec; exact hexec, hkept, hlive, hsticky (by rw [Device.atMoment_report]), hmark,
      fun h => ?_, hpast, fun q h hq => ?_⟩
    · obtain ⟨hanswered, -, hcleared, hplaces⟩ := hglobal h
      exact ⟨hanswered, hcleared, hplaces⟩
    · obtain ⟨hanswered, hplaces⟩ := hplace q h hq
      obtain ⟨hrest, hother⟩ := q.clearFault_frame p
      exact ⟨hanswered, _, hplaces, hrest, hother, q.marked_clearFault p⟩
  · intro p f s hopen
    obtain ⟨t, hexec, hkept, hlive, hsticky, hmark, -, hglobal, hpast, hplace⟩ :=
      State.takeFaultRequest (f := f) (after := Device.live) (change := fun q => (q.clearSticky p).clearFault p)
        Request.faultsClear.code hopen
    rw [Device.atMoment_live] at hglobal
    refine ⟨t, by rw [← faultsClearRule_eq] at hexec; exact hexec, hkept, hlive, hsticky, hmark, hglobal, hpast, fun q h hq => ?_⟩
    obtain ⟨hanswered, hplaces⟩ := hplace q h hq
    exact ⟨hanswered, _, hplaces, q.cleared_frame p _ rfl⟩

/-! ## SET_ATTN (R170, R182) -/

/-- Bits 15..7 of the value are reserved. -/
theorem attnReserved_iff (v : Word) : (v &&& 0xFF80 != 0) = true ↔ v.extractLsb' 7 9 ≠ 0 := by
  have hfield : v &&& 0xFF80 = v.extractLsb' 7 9 ++ 0#7 := by
    refine BitVec.eq_of_getLsbD_eq fun i hi => ?_
    refine Eq.trans ?_ (BitVec.getLsbD_append ..).symm
    interval_cases i <;> simp
  have hzero : ∀ x : BitVec 9, x ++ 0#7 = (0 : Word) ↔ x = 0 := by decide
  rw [bne_iff_ne, hfield, ne_eq, ne_eq, hzero]

/-- The enable set of a port put anew. -/
def Device.enableSet (d : Device) (p : Port) (enable : BitVec 7) : Device :=
  d.setReport p { d.report.get p with enable := enable }

theorem Device.enableSet_globalMark (d : Device) (p : Port) (enable : BitVec 7) (port : Port) :
    ((d.enableSet p enable).report.get port).globalMark = (d.report.get port).globalMark :=
  d.setReport_congr p { d.report.get p with enable := enable } PortReport.globalMark rfl port

theorem Device.enableSet_stickyGlobal (d : Device) (p : Port) (enable : BitVec 7) (port : Port) :
    ((d.enableSet p enable).report.get port).stickyGlobal = (d.report.get port).stickyGlobal :=
  d.setReport_congr p { d.report.get p with enable := enable } PortReport.stickyGlobal rfl port

section
variable {p : Port} {f : Frame} (d : Device) (u : PortUnit)

theorem setAttnRule_refused (h : f.value.extractLsb' 7 9 ≠ 0) :
    setAttnRule p f d u = Reply.only .range ((d.report.get p).enable.setWidth 16) d u := if_pos ((attnReserved_iff _).2 h)

theorem setAttnRule_ok (h : f.value.extractLsb' 7 9 = 0) : setAttnRule p f d u = {
    status := .ok, data := f.value, unit := u, dev := d.enableSet p (f.value.extractLsb' 0 7) } :=
  if_neg fun hreserved => (attnReserved_iff _).1 hreserved h

/-- Accepted or refused, the request puts an enable set at its port: refused, the one that stands there. -/
theorem setAttnRule_dev : ∃ enable : BitVec 7, (setAttnRule p f d u).dev = d.enableSet p enable := by
  by_cases h : f.value.extractLsb' 7 9 = 0
  · exact ⟨_, by rw [setAttnRule_ok d u h]⟩
  · exact ⟨(d.report.get p).enable, by rw [setAttnRule_refused d u h]; exact (d.setReport_get p).symm⟩

end

/-- An enable set put at a port leaves every pending cause of it (R170, R180). -/
theorem Device.causePending_enableSet (d : Device) (p : Port) (enable : BitVec 7) (cause : Nat) :
    (d.enableSet p enable).finish.causePending p cause = d.causePending p cause :=
  Device.causePending_congr (d := d) (e := (d.enableSet p enable).finish) rfl rfl rfl
    (by rw [Device.finish_globalMark, Device.enableSet_globalMark]) cause

/-- Settles O37: `setAttnRule_ok` and `setAttnRule_refused` give the answer; the attention follows as at every event. -/
theorem setAttnReplacesThePortsEnableSet : Obligations.SetAttnReplacesThePortsEnableSet := by
  intro p f s hopen
  generalize hd : s.dev.atMoment f.moment = d
  have hreport : d.report = s.dev.report := by rw [← hd, Device.atMoment_report]
  obtain ⟨t, hexec, hdev, hanswered, hkept⟩ :=
    State.takeRequest_open s p f Request.setAttn.code (setAttnRule p f) hopen (by rw [setAttnRule_unit])
  rw [setAttnRule_unit] at hkept
  rw [hd] at hdev hanswered
  obtain ⟨enable, henable⟩ := setAttnRule_dev (p := p) (f := f) d (s.ports.get p)
  have hset : t.dev = (d.enableSet p enable).finish := by rw [hdev, henable]
  obtain ⟨hpriority, hline⟩ := (d.enableSet p enable).attention_finish p
  rw [← hset] at hpriority hline
  refine ⟨t, hexec, hkept, ?_, ?_, fun port => ⟨?_, ?_⟩, ?_, ?_, fun hreserved => ?_, fun hclear => ?_, fun cause => ?_,
    hpriority, hline⟩
  · rw [hset, ← hd]; exact Device.atMoment_places ..
  · rw [hset, Device.finish_enable, Device.enableSet, Device.setReport_other, hreport]
  · rw [hset, Device.finish_globalMark, Device.enableSet_globalMark, hreport]
  · rw [hset, Device.finish_stickyGlobal, Device.enableSet_stickyGlobal, hreport]
  · rw [hset, Device.mapPending_finish, ← hd]; cases f.moment <;> rfl
  · rw [hset, ← hd]; exact Device.atMoment_vehicle ..
  · rw [setAttnRule_refused d _ hreserved] at hdev hanswered
    rw [← hreport]
    exact ⟨hanswered, by rw [State.blocksKept, hdev, ← hd]; exact s.dev.kept_finish f.moment⟩
  · rw [setAttnRule_ok d _ hclear] at hdev hanswered
    exact ⟨hanswered, by rw [hdev, Device.finish_enable, Device.enableSet, Device.setReport_same]⟩
  · rw [hset, Device.causePending_enableSet, ← hd]
    exact Device.causePending_congr (Device.atMoment_places ..) (Device.atMoment_accepted ..) (Device.atMoment_vehicle ..)
      (by rw [Device.atMoment_report]) cause

end Sys2Proof.Machine
end

section
/-! PROOF. A step is its front command: what a step is by what waits in the queue (O1). -/

namespace Sys2Proof.Machine

section
variable {s : State}

/-- With a command at the front, the step runs it on the state that holds the queue's rest. -/
theorem step_of_pending_cons {c : Instr} {rest : List Instr} (h : s.pending = c :: rest) :
    step s = exec c { s with pending := rest } := by
  rw [step, h]

/-- With no command waiting the block idles (assumption 3). -/
theorem step_of_pending_nil (h : s.pending = []) : step s = .next s := by
  rw [step, h]

end

/-- Settles O1: the two cases of the queue. A command put at the front and taken off again leaves the state as it was. -/
theorem stepRunsTheFrontCommand : Obligations.StepRunsTheFrontCommand := by
  refine ⟨fun c s => ?front, fun s hempty => step_of_pending_nil hempty⟩
  case front =>
    have hfront : ({ s with pending := c :: s.pending } : State).pending = c :: s.pending := rfl
    exact step_of_pending_cons hfront

end Sys2Proof.Machine
end
